-- ==== Sys2Proof/Word.lean ====
section
/-! DEFINITION. The values the framer computes with: bytes, command words, line levels (00_scope.md section 6). -/

namespace Sys2Proof

/-- A byte: 8 bits, unsigned (00_scope.md section 6; R68). -/
abbrev Byte := BitVec 8

/-- A host command word `cmd[15:0]`, format CMD16 (R65). -/
abbrev Word := BitVec 16

/-- A module index, 2 bits (R11). -/
abbrev ModIndex := BitVec 2

/-- A level on the wire: `HIGH` is `true`, `LOW` is `false` (R43; 00_scope.md section 6). -/
abbrev Level := Bool

/-- `LOW` = 0 (00_scope.md section 6). -/
abbrev LOW : Level := false

/-- `HIGH` = 1 (00_scope.md section 6). -/
abbrev HIGH : Level := true

end Sys2Proof
end

