-- ==== Sys2Proof/Config.lean ====
section
/-! DEFINITION. What is fixed for one framer (the parameters of R3) and what the spec leaves open (free values). -/

namespace Sys2Proof

/-- The parameters of R3, all ten: "a configuration field of the model, never state". -/
structure Params where
  /-- `T_BIT`: cycles each transmitted slot is held. -/
  tBit : Nat
  /-- `T_SETTLE`: cycles between releasing the pin and the first poll. -/
  tSettle : Nat
  /-- `T_TICK`: cycles from a HIGH poll to the next poll. -/
  tTick : Nat
  /-- `N_TICKS`: most HIGH polls in one bit measurement. -/
  nTicks : Nat
  /-- `ACC_STEP`: added to the elapsed-time estimate for each HIGH poll. -/
  accStep : Nat
  /-- `THRESH`: a bit is 1 when the estimate exceeds it. -/
  thresh : Nat
  /-- `CS_ACC_BITS`: width W of the checksum accumulator. -/
  csAccBits : Nat
  /-- `RESET_DATA[0..3]`. -/
  resetData : Vector Byte 4
  /-- `RESET_MOD`. -/
  resetMod : ModIndex
  /-- `CLK_HZ`: how long a cycle is, in cycles per second; "no rule depends on it" (R3, R4), and none reads it. -/
  clkHz : Nat
  deriving DecidableEq, Repr

/-- The constraint column of R3. (`ACC_STEP`, `THRESH`, `CLK_HZ` are any natural numbers; `RESET_DATA` and `RESET_MOD` are in
range by their types.) -/
abbrev Params.Legal (p : Params) : Prop :=
  1 ≤ p.tBit ∧ 1 ≤ p.tSettle ∧ 1 ≤ p.tTick ∧ 1 ≤ p.nTicks ∧ (p.csAccBits = 8 ∨ p.csAccBits = 16)

/-- FREE VALUE (log 2): the level of `pin_i` at the `n`-th edge at which State lists none: "an unconstrained oracle
answer" (R21). -/
opaque Config.pinLevel : Nat → Level

/-- FREE VALUE (log 7): `TxByte(k)` for `k` outside 0..5, to which R107 gives no value; no reachable state asks
for it (R44). -/
opaque Config.txByteBeyond : BitVec 3 → Byte

end Sys2Proof
end

