-- ==== Sys2Proof/Machine/Nominal.lean ====
section
/-! DEFINITION. The parameter values of the machine that the fixed-name `step` and `exec` run (R3, the nominal column). -/

namespace Sys2Proof.Machine

/-- DESIGN CHOICE (log 4, 5, 6): the nominal values of R3. The operations themselves take any `Params`. -/
def params : Params where
  tBit := 417
  tSettle := 1500
  tTick := 25
  nTicks := 100
  accStep := 25
  thresh := 400
  csAccBits := 8
  resetData := #v[0x00, 0x00, 0x00, 0x00]
  resetMod := 0
  clkHz := 1000000

end Sys2Proof.Machine
end

