-- ==== Sys2Proof/Machine/Operands.lean ====
section
/-! DEFINITION. The values the operations compute: index check, checksum, request bytes, slots, decoded bits. Pure functions, no state. -/

namespace Sys2Proof.Machine

/-- The legal channel and module indices are 0..3; `idx` is never masked to 2 bits (R44, R67). -/
abbrev IndexLegal (idx : BitVec 4) : Prop := idx.toNat ≤ 3

/-- `Checksum(d0,d1,d2,d3,m)` with accumulator width `W` (R140, R141). -/
def checksum (W : Nat) (d0 d1 d2 d3 : Byte) (m : ModIndex) : Byte :=
  let c1 := (d0.toNat + d1.toNat + d2.toNat + d3.toNat) % 2 ^ W
  let c2 := (c1 + (c1 >>> 8)) % 2 ^ W
  let c3 := (c2 + (c2 <<< 4)) % 2 ^ W
  let c4 := c3 &&& 0xF0
  BitVec.ofNat 8 (c4 ||| m.toNat)

/-- The header byte: "always `0xFF` and is never user-settable" (R10, R62). -/
def header : Byte := 0xFF

/-- Byte `k` of the request whose data bytes are `d0..d3` and whose checksum byte is `cs` (R62, R107); a free value
for `k` = 6, 7 (log 7). -/
def requestByte (d0 d1 d2 d3 cs : Byte) (k : BitVec 3) : Byte :=
  match k.toNat with
  | 0 => header
  | 1 => d0
  | 2 => d1
  | 3 => d2
  | 4 => d3
  | 5 => cs
  | _ => Config.txByteBeyond k

/-- `SlotLevel(v, s)` (R61), asked only for `s` in 0..10 (log 8). -/
def slotLevel (v : Byte) (s : Nat) : Level :=
  if s = 0 then LOW else if s ≤ 8 then v.getLsbD (s - 1) else HIGH

/-- `ByteSlots(v)`: the 11 levels of one byte, slot 0 first (R60, R61). -/
def byteSlots (v : Byte) : List Level := (List.range 11).map (slotLevel v)

/-- The 66 levels of the request with these bytes, slot 0 first (R62). -/
def requestSlots (d0 d1 d2 d3 cs : Byte) : List Level :=
  byteSlots header ++ byteSlots d0 ++ byteSlots d1 ++ byteSlots d2 ++ byteSlots d3 ++ byteSlots cs

/-- `FrameBytes(d0,d1,d2,d3,m)` (R62). -/
def frameBytes (W : Nat) (d0 d1 d2 d3 : Byte) (m : ModIndex) : List Byte :=
  [header, d0, d1, d2, d3, checksum W d0 d1 d2 d3 m]

/-- `FrameSlots(d0,d1,d2,d3,m)` (R62). -/
def frameSlots (W : Nat) (d0 d1 d2 d3 : Byte) (m : ModIndex) : List Level :=
  requestSlots d0 d1 d2 d3 (checksum W d0 d1 d2 d3 m)

/-- The byte whose bits are `bits`, least significant first (R41). -/
def byteOfBits (bits : List Bool) : Byte :=
  BitVec.ofNat 8 (bits.foldr (fun b n => 2 * n + b.toNat) 0)

/-- `DECODEBIT(acc)`: 1 when the estimate exceeds the threshold, strictly (R124). -/
def decodeBit (thresh acc : Nat) : Bool := decide (acc > thresh)

/-- `v` with bit `i` set to `b` (R185, R125); a bit the byte does not have changes nothing (log 8). -/
def setBit (v : Byte) (i : Nat) (b : Bool) : Byte :=
  (v &&& ~~~(1#8 <<< i)) ||| ((if b then 1#8 else 0#8) <<< i)

end Sys2Proof.Machine
end

