-- ==== Sys2Proof/Syntax.lean ====
section
/-! DEFINITION. The instructions: one constructor per row of spec/opcode_table.json (R66, R100, R107, R120). -/

namespace Sys2Proof

/-- A host command word with every bit of it, ignored fields too (R65, R70), or one of the internal operations that
have a row in the opcode table. An internal operation is named at each clock edge it runs (log 9). -/
inductive Instr where
  /-- `SETDATA idx, val` (R150). -/
  | setData (idx : BitVec 4) (val : Byte)
  /-- `SETMOD idx`; `val` is ignored (R151, R70). -/
  | setMod (idx : BitVec 4) (val : Byte)
  /-- `COMM`; both fields are ignored (R152, R70). -/
  | comm (idx : BitVec 4) (val : Byte)
  /-- A reserved word with `op` = 0x0; `low` is `cmd[11:0]` (R160, R69). -/
  | reserved0 (low : BitVec 12)
  /-- A reserved word with `op` in 0x4..0x7; `op` is `cmd[13:12]` (R160, R69). -/
  | reserved47 (op : BitVec 2) (low : BitVec 12)
  /-- A reserved word with `op` in 0x8..0xF; `op` is `cmd[14:12]` (R160, R69). -/
  | reserved8F (op : BitVec 3) (low : BitVec 12)
  /-- `SENDBYTE(v)` (R100), whose wire form is W11 (R60). -/
  | sendByte (v : Byte)
  /-- `SENDFRAME` (R107), whose wire form is W66 (R62): its data bytes and its checksum byte (log 10). -/
  | sendFrame (d0 d1 d2 d3 cs : Byte)
  /-- `RECVBYTE` (R120): no operands. -/
  | recvByte
  deriving DecidableEq, Repr

end Sys2Proof
end

