-- ==== Sys2Proof/WellFormed.lean ====
section
/-! DEFINITION. Which instructions the framer can be given or can run. -/

namespace Sys2Proof

/-- The layout of a checksum byte that is ever sent: bits 3:2 are 0 (R63, R74). -/
def WellFormed.csLayout (cs : Byte) : Bool := cs.extractLsb' 2 2 == 0

/-- The high nibble is the fold of the data bytes (R63, R140), for the module index in bits 1:0. -/
def WellFormed.csFold (d0 d1 d2 d3 cs : Byte) : Bool :=
  cs.extractLsb' 4 4 == (Machine.checksum Machine.params.csAccBits d0 d1 d2 d3 0).extractLsb' 4 4

/-- Every command word is well formed: all 65536 are answered (R66, R69), and an index of 4..15 "can be presented and
refused" (R65, R72). A request image is well formed when its checksum byte is the one R62 gives: the transmitter emits
no other (R74). -/
def WellFormed : Instr → Bool
  | .setData _ _ => true
  | .setMod _ _ => true
  | .comm _ _ => true
  | .reserved0 _ => true
  | .reserved47 _ _ => true
  | .reserved8F _ _ => true
  | .sendByte _ => true
  | .sendFrame d0 d1 d2 d3 cs => WellFormed.csLayout cs && WellFormed.csFold d0 d1 d2 d3 cs
  | .recvByte => true

end Sys2Proof
end

