-- ==== Sys2Proof/Decode.lean ====
section
/-! DEFINITION. Decoding and encoding: the command word CMD16 (R65 to R70), the wire formats W11 and W66 (R60 to R63), and the label RESP8 (R64). -/

namespace Sys2Proof

/-- What is decoded: a word on the command port, the levels of a run of slots on the wire in time order, or the eight
measurements of a response, the first in bit 0 (30_encoding.md sections 1 to 5). -/
inductive Code where
  | cmd (w : Word)
  | slots (levels : List Level)
  | resp (bits : Byte)
  deriving DecidableEq, Repr

/-- Why a run of slots is no byte and no request. No command word is ever rejected (R66). -/
inductive DecodeError where
  /-- Neither 11 slots (R60) nor 66 (R62). -/
  | wrongLength (n : Nat)
  /-- Slot 0 of byte `k` is not LOW (R60). -/
  | noStart (k : Nat)
  /-- Slot 9 or 10 of byte `k` is not HIGH (R60). -/
  | noStop (k : Nat)
  /-- Byte 0 of a request is not 0xFF (R62). -/
  | badHeader (v : Byte)
  /-- Byte 5 of a request is not its checksum byte (R62, R63). -/
  | badChecksum (v : Byte)
  deriving DecidableEq, Repr

/-- The `op`, `idx` and `val` fields of a command word (R65). -/
def cmdOp (w : Word) : BitVec 4 := w.extractLsb' 12 4
def cmdIdx (w : Word) : BitVec 4 := w.extractLsb' 8 4
def cmdVal (w : Word) : Byte := w.extractLsb' 0 8

/-- `cmd[11:0]`, ignored by a reserved word (R160). -/
def cmdLow (w : Word) : BitVec 12 := w.extractLsb' 0 12

/-- Decode a command word: total, the rows of R66. -/
def decodeCmd (w : Word) : Instr :=
  if cmdOp w = 0x1#4 then .setData (cmdIdx w) (cmdVal w)
  else if cmdOp w = 0x2#4 then .setMod (cmdIdx w) (cmdVal w)
  else if cmdOp w = 0x3#4 then .comm (cmdIdx w) (cmdVal w)
  else if cmdOp w = 0x0#4 then .reserved0 (cmdLow w)
  else if (cmdOp w).toNat < 8 then .reserved47 (w.extractLsb' 12 2) (cmdLow w)
  else .reserved8F (w.extractLsb' 12 3) (cmdLow w)

/-- Decode the 11 slots of byte `k` (R60). -/
def decodeByteSlots (k : Nat) : List Level → Except DecodeError Byte
  | [s0, b0, b1, b2, b3, b4, b5, b6, b7, s9, s10] =>
    if s0 then .error (.noStart k)
    else if s9 && s10 then .ok (Machine.byteOfBits [b0, b1, b2, b3, b4, b5, b6, b7])
    else .error (.noStop k)
  | l => .error (.wrongLength l.length)

/-- Byte `k` of a run of slots is slots `11 k` to `11 k + 10` (R62). -/
def decodeFrameByte (l : List Level) (k : Nat) : Except DecodeError Byte :=
  decodeByteSlots k ((l.drop (11 * k)).take 11)

/-- Decode the 66 slots of a request (R62, R63). -/
def decodeFrameSlots (l : List Level) : Except DecodeError Instr := do
  let h ← decodeFrameByte l 0
  let d0 ← decodeFrameByte l 1
  let d1 ← decodeFrameByte l 2
  let d2 ← decodeFrameByte l 3
  let d3 ← decodeFrameByte l 4
  let cs ← decodeFrameByte l 5
  if h ≠ Machine.header then .error (.badHeader h)
  else if WellFormed (.sendFrame d0 d1 d2 d3 cs) then .ok (.sendFrame d0 d1 d2 d3 cs)
  else .error (.badChecksum cs)

/-- Decode a run of slots by its length (R60, R62). -/
def decodeSlots (l : List Level) : Except DecodeError Instr :=
  if l.length = 11 then (decodeByteSlots 0 l).map .sendByte
  else if l.length = 66 then decodeFrameSlots l
  else .error (.wrongLength l.length)

/-- The decoder. A response is decoded from any eight measurements (R64, R130). -/
def decode : Code → Except DecodeError Instr
  | .cmd w => .ok (decodeCmd w)
  | .slots l => decodeSlots l
  | .resp _ => .ok .recvByte

/-- The encoder, from R65, R66 for the command words and R60 to R62 for the wire. RECVBYTE has no encoding of its own
(R120): its label carries a response of zeros (log 15). -/
def encode : Instr → Code
  | .setData idx val => .cmd (0x1#4 ++ idx ++ val)
  | .setMod idx val => .cmd (0x2#4 ++ idx ++ val)
  | .comm idx val => .cmd (0x3#4 ++ idx ++ val)
  | .reserved0 low => .cmd (0x0#4 ++ low)
  | .reserved47 op low => .cmd (0b01#2 ++ op ++ low)
  | .reserved8F op low => .cmd (0b1#1 ++ op ++ low)
  | .sendByte v => .slots (Machine.byteSlots v)
  | .sendFrame d0 d1 d2 d3 cs => .slots (Machine.requestSlots d0 d1 d2 d3 cs)
  | .recvByte => .resp 0

/-- The `n` slots that opcode_table.json writes as a string of `n` characters, first slot leftmost, read as one number
whose leftmost character is its most significant bit (log 15). -/
def slotsOfTable (n w : Nat) : List Level := (List.range n).map fun i => w.testBit (n - 1 - i)

/-- The instruction the decoder reads from the bits `w` of an opcode-table row (log 15): 16 bits are a command word, 11
a byte on the wire, 66 (72 in whole bytes) a request, 8 a response. -/
def decodeTableWord (nbits w : Nat) : Option Instr :=
  if nbits = 16 then if w < 2 ^ 16 then some (decodeCmd (BitVec.ofNat 16 w)) else none
  else if nbits = 8 then if w < 2 ^ 8 then (decode (.resp (BitVec.ofNat 8 w))).toOption else none
  else if nbits = 11 then if w < 2 ^ 11 then (decode (.slots (slotsOfTable 11 w))).toOption else none
  else if nbits = 66 ∨ nbits = 72 then
    if w < 2 ^ 66 then (decode (.slots (slotsOfTable 66 w))).toOption else none
  else none

end Sys2Proof
end

