-- ==== Sys2Proof/Machine/State.lean ====
section
/-! DEFINITION. The state of the framer (10_state.md R10 to R23), the inputs at an edge (R180), and the reasons a step could stop. -/

namespace Sys2Proof.Machine

/-- The phase `ph`, 2 bits: IDLE = 0, SEND = 1, SETTLE = 2, MEAS = 3 (R15). -/
inductive Phase where
  | idle
  | send
  | settle
  | meas
  deriving DecidableEq, Repr

/-- The response status (R17, R71); code 3 "is never produced". -/
inductive Status where
  | ok
  | errConfig
  | errIllegal
  deriving DecidableEq, Repr

/-- `rsp_status[1:0]` (R71). -/
def Status.code : Status → BitVec 2
  | .ok => 0
  | .errConfig => 1
  | .errIllegal => 2

/-- The registers: the `S` of R180, and all the state the spec gives the framer (R23). -/
structure Regs where
  /-- `data[0..3]`, the output buffer (R10). -/
  data : Vector Byte 4
  /-- `mod`, the module index (R11). -/
  mod : ModIndex
  /-- `rsp_valid` (R17). -/
  rspValid : Bool
  /-- `rsp_status` (R17, R71). -/
  rspStatus : BitVec 2
  /-- `rsp_data` (R17). -/
  rspData : Byte
  /-- `ph` (R15). -/
  ph : Phase
  /-- `bi`: index of the byte being sent (R15). -/
  bi : BitVec 3
  /-- `si`: index of the slot being sent, or of the bit being measured (R15). -/
  si : BitVec 4
  /-- `pcnt`: HIGH polls so far in the current measurement (R15; a natural number, log 12). -/
  pcnt : Nat
  /-- `acc`: elapsed-time estimate of the current measurement (R15; a natural number, log 12). -/
  acc : Nat
  /-- `tmr`: the down-timer (R15, R220; a natural number, log 12). -/
  tmr : Nat
  /-- `rxsh`: bits decoded so far in the current response (R15). -/
  rxsh : Byte
  /-- `pin_oe`: 1 drives the wire, 0 releases it (R16). -/
  pinOe : Bool
  /-- `pin_o`: the level driven while `pin_oe = 1` (R16). -/
  pinO : Level
  deriving DecidableEq, Repr

/-- The inputs sampled at one edge, `I = (rst, cmd_valid, cmd, pin_i)` (R180, R20). -/
structure Input where
  rst : Bool
  cmdValid : Bool
  cmd : Word
  pinI : Level
  deriving DecidableEq, Repr

/-- What the host does at coming edges (R21(b), R153, R191; log 3). -/
inductive HostAct where
  /-- For one edge: these values on `rst`, `cmd_valid` and `cmd`. -/
  | drive (rst cmdValid : Bool) (cmd : Word)
  /-- The word held on the port, `cmd_valid = 1`, `rst = 0`, until an edge accepts it (R191). -/
  | hold (cmd : Word)
  deriving DecidableEq, Repr

/-- The environment of the framer: the model's own fields, no state of the hardware (R21; log 1, 2, 3). -/
structure Env where
  /-- What the host does, oldest first; after the last entry it presents nothing (log 3). -/
  host : List HostAct
  /-- The levels of `pin_i` at the coming edges; after the last one a free value at every edge (log 2). -/
  pins : List Level
  /-- The index of the next free value of `pin_i` (log 2). -/
  edge : Nat
  deriving DecidableEq, Repr

/-- The whole state of a run: the framer's registers and its environment. -/
structure State extends Regs where
  env : Env
  deriving DecidableEq, Repr

/-- Nothing stops the framer: Step is total (R180), and "nothing is `fault` in the modelling guide's sense"
(93_implementation_defined.md, end of part 1). So there is no fault to name: no constructor, raised by no one. -/
inductive Fault where
  deriving DecidableEq, Repr

/-- Why an instruction would have no meaning. Safe. -/
inductive Refusal where
  /-- An instruction without a meaning yet. Raised by no arm of `exec`: every row of the opcode table has its meaning.
  Safe: a claim about a next state could not be proved of it. -/
  | notModelled (mnemonic : String)
  deriving DecidableEq, Repr

/-- `ResetState` for the parameters `p` (R22, R240). -/
def resetRegs (p : Params) : Regs where
  data := p.resetData
  mod := p.resetMod
  rspValid := false
  rspStatus := 0
  rspData := 0
  ph := .idle
  bi := 0
  si := 0
  pcnt := 0
  acc := 0
  tmr := 0
  rxsh := 0
  pinOe := false
  pinO := LOW

/-- The machine right after reset: R22's `ResetState`, with `RESET_DATA` and `RESET_MOD` at the spec's default (log 5),
and an environment that lists nothing (log 2, 3). -/
def State.reset : State where
  toRegs := resetRegs params
  env := { host := [], pins := [], edge := 0 }

/-- A change of the registers only. -/
def State.onRegs (s : State) (f : Regs → Regs) : State := { s with toRegs := f s.toRegs }

end Sys2Proof.Machine
end

