-- ==== Sys2Proof/Machine/Flags.lean ====
section
/-! DEFINITION. The two status outputs (R18, R186). The framer has no condition codes. -/

namespace Sys2Proof.Machine

/-- `cmd_ready = 1` exactly when `ph = IDLE` (R18). -/
def cmdReady (r : Regs) : Bool := r.ph == .idle

/-- `busy = 1` exactly when `ph != IDLE` (R18). -/
def busy (r : Regs) : Bool := !cmdReady r

end Sys2Proof.Machine
end

