-- ==== Sys2Proof/Machine/Ops.lean ====
section
/-! DEFINITION. The named operations on the registers: the response and the errors, the pin, reading the request, the slots, the settle delay and the measurements. -/

namespace Sys2Proof.Machine

/-! ### The response channel -/

/-- The default of every cycle: the three response registers are cleared (R181). -/
def clearRsp (r : Regs) : Regs := { r with rspValid := false, rspStatus := 0, rspData := 0 }

/-- `respond(status, d)` (00_scope.md section 6; R17, R181). -/
def respond (st : Status) (d : Byte) (r : Regs) : Regs :=
  { r with rspValid := true, rspStatus := st.code, rspData := d }

/-- Taking an error: `respond(status, 0)` and nothing else, "nothing is saved, no mode changes, control goes nowhere"
(R213). There is nothing to return from (R214). -/
def raise (st : Status) (r : Regs) : Regs := respond st 0 r

/-- What a host command does at an edge: if `cmd_ready`, it is accepted and takes effect; otherwise "the word is not
read, not queued and not answered" (R153; log 11). The clearing of R181 comes first. -/
def accept (effect : Regs → Regs) (r : Regs) : Regs :=
  if cmdReady r then effect (clearRsp r) else clearRsp r

/-! ### The registers the host writes -/

/-- SETDATA's effect (R150, R182): the index is checked before anything is written (R211). -/
def writeData (idx : BitVec 4) (val : Byte) (r : Regs) : Regs :=
  if h : IndexLegal idx then
    respond .ok 0 { r with data := r.data.set idx.toNat val (Nat.lt_succ_of_le h) }
  else raise .errConfig r

/-- SETMOD's effect (R151, R182). -/
def writeMod (idx : BitVec 4) (r : Regs) : Regs :=
  if IndexLegal idx then respond .ok 0 { r with mod := idx.extractLsb' 0 2 } else raise .errConfig r

/-! ### The pin -/

/-- `drive(l)` (00_scope.md section 6; R16). -/
def drive (l : Level) (r : Regs) : Regs := { r with pinOe := true, pinO := l }

/-- `release()` (00_scope.md section 6; R16). -/
def release (r : Regs) : Regs := { r with pinOe := false, pinO := LOW }

/-- `wait(n)`: the arm that follows runs `n` cycles after this one (00_scope.md section 6). -/
def wait (n : Nat) (r : Regs) : Regs := { r with tmr := n - 1 }

/-- A cycle of waiting: no register changes except the down-timer (R4). -/
def countDown (r : Regs) : Regs := { r with tmr := r.tmr - 1 }

/-! ### Sending -/

/-- The checksum byte of the current `data` and `mod`, never cached (R13, R145). -/
def requestChecksum (p : Params) (r : Regs) : Byte :=
  checksum p.csAccBits r.data[0] r.data[1] r.data[2] r.data[3] r.mod

/-- `TxByte(k)` (R107). -/
def txByte (p : Params) (r : Regs) (k : BitVec 3) : Byte :=
  requestByte r.data[0] r.data[1] r.data[2] r.data[3] (requestChecksum p r) k

/-- A byte is on the wire and its last stop slot has not ended: one of the first two cases of R183 applies. -/
def byteInProgress (r : Regs) : Bool := r.ph == .send && (decide (0 < r.tmr) || decide (r.si.toNat < 10))

/-- A cycle within the byte `v`: the slot goes on, or the next slot begins (the first two cases of R183). -/
def slotEdge (p : Params) (v : Byte) (r : Regs) : Regs :=
  if 0 < r.tmr then countDown r
  else wait p.tBit { r with si := r.si + 1, pinO := slotLevel v (r.si.toNat + 1) }

/-- SENDBYTE steps 1 and 2: output mode, the start slot (R100). -/
def startByte (p : Params) (r : Regs) : Regs :=
  wait p.tBit (drive LOW { r with ph := .send, si := 0 })

/-- The start slot of the next byte of a request, "with no cycle between"; `pin_oe` stays as it is (R183, R105, R106). -/
def nextByte (p : Params) (r : Regs) : Regs :=
  wait p.tBit { r with bi := r.bi + 1, si := 0, pinO := LOW }

/-- The start slot of the header (R182, COMM; R107). -/
def startFrame (p : Params) (r : Regs) : Regs := startByte p { r with bi := 0 }

/-- One cycle of `SENDBYTE(v)`: begun if no byte is in progress, otherwise carried on (R100, R183; log 9). -/
def sendByteEdge (p : Params) (v : Byte) (r : Regs) : Regs :=
  if byteInProgress r then slotEdge p v r else startByte p r

/-- One cycle of SENDFRAME over the bytes `bytes`: within a byte, a cycle of SENDBYTE; at the end of byte 0..4, the next
byte; otherwise a request is begun (R107, R183; log 9). -/
def sendFrameEdge (p : Params) (bytes : BitVec 3 → Byte) (r : Regs) : Regs :=
  if byteInProgress r then slotEdge p (bytes r.bi) r
  else if r.ph = .send ∧ r.bi.toNat < 5 then nextByte p r
  else startFrame p r

/-! ### Receiving -/

/-- RECVBYTE steps 1 and 2: release the wire and wait (R120, R121; the last case of R183). -/
def startReceive (p : Params) (r : Regs) : Regs :=
  wait p.tSettle (release { r with ph := .settle, bi := 0, si := 0 })

/-- A cycle of the settle delay (R122, R184). -/
def settleEdge (r : Regs) : Regs :=
  if 0 < r.tmr then countDown r
  else { r with ph := .meas, si := 0, pcnt := 0, acc := 0, rxsh := 0, tmr := 0 }

/-- A HIGH poll: "poll, then add, then wait" (R123, R185). -/
def highPoll (p : Params) (r : Regs) : Regs :=
  wait p.tTick { r with acc := r.acc + p.accStep, pcnt := r.pcnt + 1 }

/-- The bits decoded so far with the bit that ends now (R124, R125, R185). -/
def withDecodedBit (p : Params) (r : Regs) : Byte :=
  setBit r.rxsh r.si.toNat (decodeBit p.thresh r.acc)

/-- The end of a bit: the next measurement, or after the eighth the response (R185, R125). -/
def endBit (p : Params) (r : Regs) : Regs :=
  if r.si.toNat < 7 then
    { r with rxsh := withDecodedBit p r, si := r.si + 1, pcnt := 0, acc := 0, tmr := 0 }
  else
    respond .ok (withDecodedBit p r)
      { r with ph := .idle, si := 0, pcnt := 0, acc := 0, tmr := 0, rxsh := 0 }

/-- A cycle of the measurements, with the level `pin` at this edge (R123, R127, R185). -/
def measureEdge (p : Params) (pin : Level) (r : Regs) : Regs :=
  if 0 < r.tmr then countDown r
  else if r.pcnt < p.nTicks ∧ pin = HIGH then highPoll p r
  else endBit p r

/-- One cycle of RECVBYTE: begun from any other phase, otherwise carried on (R120; log 9). -/
def recvByteEdge (p : Params) (pin : Level) (r : Regs) : Regs :=
  match r.ph with
  | .settle => settleEdge r
  | .meas => measureEdge p pin r
  | .idle => startReceive p r
  | .send => startReceive p r

end Sys2Proof.Machine
end

