-- ==== Sys2Proof/Machine/Port.lean ====
section
/-! DEFINITION. The ports: the inputs at an edge, what the environment does next, which instruction runs at an edge, and how an instruction is put where the next step runs it. -/

namespace Sys2Proof.Machine

/-- `rst`, `cmd_valid` and `cmd` at this edge (R20, R21(b); log 3). -/
def hostNow : List HostAct → Bool × Bool × Word
  | [] => (false, false, 0)
  | .drive rst v w :: _ => (rst, v, w)
  | .hold w :: _ => (false, true, w)

/-- `pin_i` at this edge (R21(c); log 2). -/
def pinNow (e : Env) : Level :=
  match e.pins with
  | [] => Config.pinLevel e.edge
  | l :: _ => l

/-- The inputs sampled at this edge (R180). -/
def inputNow (s : State) : Input where
  rst := (hostNow s.env.host).1
  cmdValid := (hostNow s.env.host).2.1
  cmd := (hostNow s.env.host).2.2
  pinI := pinNow s.env

/-- What the host has still to do after an edge; a held word goes when it is accepted (R153, R191). -/
def hostAfter (ready : Bool) : List HostAct → List HostAct
  | [] => []
  | .drive _ _ _ :: rest => rest
  | .hold w :: rest => if ready then rest else .hold w :: rest

/-- The environment after this edge. -/
def envAfter (s : State) : Env where
  host := hostAfter (cmdReady s.toRegs) s.env.host
  pins := s.env.pins.tail
  edge := s.env.edge + 1

/-- What runs in phase SEND: a cycle of SENDBYTE within a byte, of SENDFRAME between two bytes, and the start of RECVBYTE
when the request is complete, each with the operands the registers give it (R107, R152, R183; log 9, 10). -/
def fetchSend (p : Params) (r : Regs) : Instr :=
  if byteInProgress r then .sendByte (txByte p r r.bi)
  else if r.bi.toNat < 5 then
    .sendFrame r.data[0] r.data[1] r.data[2] r.data[3] (requestChecksum p r)
  else .recvByte

/-- The instruction that runs at this edge when `rst = 0`: in IDLE the command presented, if any (R153, R182);
otherwise the internal operation at which the bus cycle stands (R183 to R185). -/
def fetch (s : State) : Option Instr :=
  match s.ph with
  | .idle => if (inputNow s).cmdValid then some (decodeCmd (inputNow s).cmd) else none
  | .send => some (fetchSend params s.toRegs)
  | .settle => some .recvByte
  | .meas => some .recvByte

/-- The edge with `rst = 1`: `ResetState`, whatever else there is (R240). -/
def resetEdge (s : State) : State := { toRegs := resetRegs params, env := envAfter s }

/-- An idle edge at which no command is presented: only R181's clearing (R182). -/
def quietEdge (s : State) : State := { toRegs := clearRsp s.toRegs, env := envAfter s }

/-- The canonical idle form of the sequencer and pin registers (R19). -/
def toIdle (r : Regs) : Regs :=
  { r with ph := .idle, bi := 0, si := 0, pcnt := 0, acc := 0, tmr := 0, rxsh := 0, pinOe := false, pinO := LOW }

/-- `s` with one more edge of the host in front: a word held on the command port. -/
def presentWord (w : Word) (s : State) : State :=
  { s with toRegs := toIdle s.toRegs, env := { s.env with host := .hold w :: s.env.host } }

/-- `s` with one more edge of the host in front at which `rst = 0` and nothing is presented. -/
def quietHost (s : State) : State :=
  { s with env := { s.env with host := .drive false false 0 :: s.env.host } }

/-- `s` set so that the next step runs exactly `i` (log 14): a command word is held on the command port of an idle
framer; an internal operation is put at the edge of a bus cycle where it runs. -/
def place (i : Instr) (s : State) : State :=
  match i with
  | .sendByte v =>
    quietHost { s with
      data := s.data.set 0 v, ph := .send, bi := 1, si := 0, tmr := 0, pinOe := true, pinO := LOW }
  | .sendFrame d0 d1 d2 d3 cs =>
    quietHost { s with
      data := #v[d0, d1, d2, d3], mod := cs.extractLsb' 0 2,
      ph := .send, bi := 0, si := 10, tmr := 0, pinOe := true, pinO := HIGH }
  | .recvByte =>
    quietHost { s with ph := .send, bi := 5, si := 10, tmr := 0, pinOe := true, pinO := HIGH }
  | .setData idx val => presentWord (0x1#4 ++ idx ++ val) s
  | .setMod idx val => presentWord (0x2#4 ++ idx ++ val) s
  | .comm idx val => presentWord (0x3#4 ++ idx ++ val) s
  | .reserved0 low => presentWord (0x0#4 ++ low) s
  | .reserved47 op low => presentWord (0b01#2 ++ op ++ low) s
  | .reserved8F op low => presentWord (0b1#1 ++ op ++ low) s

/-- `s` with the instruction of an opcode-table row placed, or `s` itself where the decoder refuses the bits. -/
def placeTableWord (nbits w : Nat) (s : State) : State :=
  match decodeTableWord nbits w with
  | some i => place i s
  | none => s

end Sys2Proof.Machine
end

