-- ==== Sys2Proof/Machine/BusSession.lean ====
section
/-! DEFINITION. The Bus Session: the meanings of the host commands at the edge that accepts them (43_bus_session.md, R182). -/

namespace Sys2Proof.Machine

/-- SETDATA (R150). -/
def execSetData (idx : BitVec 4) (val : Byte) (s : State) : Host.Outcome State Fault Refusal :=
  .next (s.onRegs (accept (writeData idx val)))

/-- SETMOD (R151); `val` is ignored (R70). -/
def execSetMod (idx : BitVec 4) (_val : Byte) (s : State) : Host.Outcome State Fault Refusal :=
  .next (s.onRegs (accept (writeMod idx)))

/-- COMM (R152): the bus cycle begins with the header's start slot, with no response now (R182); `idx` and `val` are
ignored (R70). -/
def execComm (_idx : BitVec 4) (_val : Byte) (s : State) : Host.Outcome State Fault Refusal :=
  .next (s.onRegs (accept (startFrame params)))

/-- A reserved word with `op` = 0x0 (R160, R212). -/
def execReserved0 (_low : BitVec 12) (s : State) : Host.Outcome State Fault Refusal :=
  .next (s.onRegs (accept (raise .errIllegal)))

/-- A reserved word with `op` in 0x4..0x7 (R160, R212). -/
def execReserved47 (_op : BitVec 2) (_low : BitVec 12) (s : State) : Host.Outcome State Fault Refusal :=
  .next (s.onRegs (accept (raise .errIllegal)))

/-- A reserved word with `op` in 0x8..0xF (R160, R212). -/
def execReserved8F (_op : BitVec 3) (_low : BitVec 12) (s : State) : Host.Outcome State Fault Refusal :=
  .next (s.onRegs (accept (raise .errIllegal)))

end Sys2Proof.Machine
end

