-- ==== Sys2Proof/Machine/FrameCodec.lean ====
section
/-! DEFINITION. The Frame Codec: the meanings of the internal operations at each edge they run (40_frame_codec_send.md, 41_frame_codec_receive.md, R183 to R185). -/

namespace Sys2Proof.Machine

/-- SENDBYTE (R100), one clock edge of it (log 9). -/
def execSendByte (v : Byte) (s : State) : Host.Outcome State Fault Refusal :=
  .next (s.onRegs fun r => sendByteEdge params v (clearRsp r))

/-- SENDFRAME (R107), one clock edge of it (log 9, 10). -/
def execSendFrame (d0 d1 d2 d3 cs : Byte) (s : State) : Host.Outcome State Fault Refusal :=
  .next (s.onRegs fun r => sendFrameEdge params (requestByte d0 d1 d2 d3 cs) (clearRsp r))

/-- RECVBYTE (R120), one clock edge of it, with `pin_i` as it is at this edge (log 2, 9). -/
def execRecvByte (s : State) : Host.Outcome State Fault Refusal :=
  .next (s.onRegs fun r => recvByteEdge params (inputNow s).pinI (clearRsp r))

end Sys2Proof.Machine
end

