-- ==== Sys2Proof/Machine/Dispatch.lean ====
section
/-! DEFINITION. One arm per constructor of Instr. -/

namespace Sys2Proof.Machine

def exec (i : Instr) (s : State) : Host.Outcome State Fault Refusal :=
  match i with
  | .setData idx val => Sys2Proof.Machine.execSetData idx val s
  | .setMod idx val => Sys2Proof.Machine.execSetMod idx val s
  | .comm idx val => Sys2Proof.Machine.execComm idx val s
  | .reserved0 low => Sys2Proof.Machine.execReserved0 low s
  | .reserved47 op low => Sys2Proof.Machine.execReserved47 op low s
  | .reserved8F op low => Sys2Proof.Machine.execReserved8F op low s
  | .sendByte v => Sys2Proof.Machine.execSendByte v s
  | .sendFrame d0 d1 d2 d3 cs => Sys2Proof.Machine.execSendFrame d0 d1 d2 d3 cs s
  | .recvByte => Sys2Proof.Machine.execRecvByte s

end Sys2Proof.Machine
end

