-- ==== Sys2Proof/Machine/Step.lean ====
section
/-! DEFINITION. One step per rising clock edge (R180). -/

namespace Sys2Proof.Machine

/-- One clock edge: `rst` first (R215, R240); otherwise the instruction that runs at this edge, or the quiet idle edge.
The environment moves on by one edge. -/
def step (s : State) : Host.Outcome State Fault Refusal :=
  if (inputNow s).rst then .next (resetEdge s)
  else
    match fetch s with
    | none => .next (quietEdge s)
    | some i =>
      match exec i s with
      | .next t => .next { t with env := envAfter s }
      | .fault f => .fault f
      | .refused f => .refused f

/-- `s` with the instruction whose opcode-table bits are `w` where the next step runs it (log 14, 15). -/
def State.withFetchWord (s : State) (nbits w : Nat) : State := placeTableWord nbits w s

end Sys2Proof.Machine
end

