-- ==== Sys2Proof/Machine/Sequencer.lean ====
section
/-! DEFINITION. The spec's own `Step(S, I)` (R180 to R185), written out arm by arm for any parameters. `step` does not call it: it is the reference that statements compare `step` with. -/

namespace Sys2Proof.Machine

/-- R182, from the cleared `S'`. -/
def specIdle (p : Params) (i : Input) (s : Regs) : Regs :=
  if i.cmdValid = false then s
  else if cmdOp i.cmd = 0x1#4 then
    if h : (cmdIdx i.cmd).toNat ≤ 3 then
      { s with
        data := s.data.set (cmdIdx i.cmd).toNat (cmdVal i.cmd) (by omega)
        rspValid := true, rspStatus := 0, rspData := 0 }
    else { s with rspValid := true, rspStatus := 1, rspData := 0 }
  else if cmdOp i.cmd = 0x2#4 then
    if (cmdIdx i.cmd).toNat ≤ 3 then
      { s with mod := (cmdIdx i.cmd).extractLsb' 0 2, rspValid := true, rspStatus := 0, rspData := 0 }
    else { s with rspValid := true, rspStatus := 1, rspData := 0 }
  else if cmdOp i.cmd = 0x3#4 then
    { s with ph := .send, bi := 0, si := 0, pinOe := true, pinO := LOW, tmr := p.tBit - 1 }
  else { s with rspValid := true, rspStatus := 2, rspData := 0 }

/-- R183, from the cleared `S'`. -/
def specSend (p : Params) (s : Regs) : Regs :=
  if s.tmr > 0 then { s with tmr := s.tmr - 1 }
  else if s.si.toNat < 10 then
    { s with si := s.si + 1, pinO := slotLevel (txByte p s s.bi) (s.si.toNat + 1), tmr := p.tBit - 1 }
  else if s.bi.toNat < 5 then { s with bi := s.bi + 1, si := 0, pinO := LOW, tmr := p.tBit - 1 }
  else { s with ph := .settle, bi := 0, si := 0, pinOe := false, pinO := LOW, tmr := p.tSettle - 1 }

/-- R184, from the cleared `S'`. -/
def specSettle (s : Regs) : Regs :=
  if s.tmr > 0 then { s with tmr := s.tmr - 1 }
  else { s with ph := .meas, si := 0, pcnt := 0, acc := 0, rxsh := 0, tmr := 0 }

/-- R185, from the cleared `S'`. -/
def specMeas (p : Params) (i : Input) (s : Regs) : Regs :=
  if s.tmr > 0 then { s with tmr := s.tmr - 1 }
  else if s.pcnt < p.nTicks ∧ i.pinI = HIGH then
    { s with acc := s.acc + p.accStep, pcnt := s.pcnt + 1, tmr := p.tTick - 1 }
  else if s.si.toNat < 7 then
    { s with
      rxsh := setBit s.rxsh s.si.toNat (decide (s.acc > p.thresh))
      si := s.si + 1, pcnt := 0, acc := 0, tmr := 0 }
  else
    { s with
      ph := .idle, si := 0, pcnt := 0, acc := 0, tmr := 0, rxsh := 0
      rspValid := true, rspStatus := 0
      rspData := setBit s.rxsh s.si.toNat (decide (s.acc > p.thresh)) }

/-- `Step(S, I)` (R180). -/
def specStep (p : Params) (i : Input) (s : Regs) : Regs :=
  if i.rst then resetRegs p
  else
    let s' : Regs := { s with rspValid := false, rspStatus := 0, rspData := 0 }
    match s.ph with
    | .idle => specIdle p i s'
    | .send => specSend p s'
    | .settle => specSettle s'
    | .meas => specMeas p i s'

/-- `S_n` from `S_0 = s` under the input stream `I` (R180). -/
def specRun (p : Params) (I : Nat → Input) (s : Regs) : Nat → Regs
  | 0 => s
  | n + 1 => specStep p (I n) (specRun p I s n)

end Sys2Proof.Machine
end

