-- ==== Sys2Proof/Safety.lean ====
section
/-! DEFINITION. The terms claims use: the invariant of reachable states, the canonical idle form, the decoder as a function of the line, repeated edges of one operation, the end of a run. -/

namespace Sys2Proof.Safety

open Sys2Proof.Machine

/-- The canonical idle form (R19). -/
structure CanonicalIdle (r : Regs) : Prop where
  ph : r.ph = .idle
  bi : r.bi = 0
  si : r.si = 0
  pcnt : r.pcnt = 0
  acc : r.acc = 0
  tmr : r.tmr = 0
  rxsh : r.rxsh = 0
  pinOe : r.pinOe = false
  pinO : r.pinO = LOW

/-- The value columns of R15 for the phase the sequencer is in; in MEAS the bits not yet decoded are 0 (R125),
and a timer runs only after a HIGH poll (R185). -/
def SeqInRange (p : Params) (r : Regs) : Prop :=
  match r.ph with
  | .idle => CanonicalIdle r
  | .send => r.bi.toNat ≤ 5 ∧ r.si.toNat ≤ 10 ∧ r.tmr < p.tBit ∧ r.pcnt = 0 ∧ r.acc = 0 ∧ r.rxsh = 0
  | .settle => r.bi = 0 ∧ r.si = 0 ∧ r.tmr < p.tSettle ∧ r.pcnt = 0 ∧ r.acc = 0 ∧ r.rxsh = 0
  | .meas => r.bi = 0 ∧ r.si.toNat ≤ 7 ∧ r.tmr < p.tTick ∧ r.pcnt ≤ p.nTicks ∧
      (r.pcnt = 0 → r.tmr = 0) ∧ r.acc = r.pcnt * p.accStep ∧ r.rxsh.toNat < 2 ^ r.si.toNat

/-- The pin registers: driven exactly in SEND (R16, R19, R51), with the level of the slot on the wire (R183); `pin_o`
is 0 while released (R16). -/
def PinMatchesPhase (p : Params) (r : Regs) : Prop :=
  (r.pinOe = true ↔ r.ph = .send) ∧ (r.pinOe = false → r.pinO = LOW) ∧
    (r.ph = .send → r.pinO = slotLevel (txByte p r r.bi) r.si.toNat)

/-- The response registers: a response is shown only in IDLE (R154), the status is never 3 (R17), an error carries 0x00
(R210), and all three are 0 when there is none (R17). -/
def RspInRange (r : Regs) : Prop :=
  (r.rspValid = true → r.ph = .idle) ∧ r.rspStatus ≠ 3 ∧ (r.rspStatus ≠ 0 → r.rspData = 0) ∧
    (r.rspValid = false → r.rspStatus = 0 ∧ r.rspData = 0)

/-- The invariant of reachable states (R12, R15 to R19). -/
structure Inv (p : Params) (r : Regs) : Prop where
  seq : SeqInRange p r
  pin : PinMatchesPhase p r
  rsp : RspInRange r

/-! ### The decoder as a function of the line (R188) -/

/-- `p_k`: the number of HIGH polls of a measurement whose first poll is at offset `t`, at most `n`: the least `q` with
`q = n` or `L(t + q*T_TICK) = 0` (R188). -/
def highPolls (tick : Nat) (L : Nat → Level) : Nat → Nat → Nat
  | 0, _ => 0
  | n + 1, t => if L t = HIGH then highPolls tick L n (t + tick) + 1 else 0

/-- `t_k`: the offset at which measurement `k` starts (R188). -/
def measStart (p : Params) (L : Nat → Level) : Nat → Nat
  | 0 => 0
  | k + 1 => measStart p L k + highPolls p.tTick L p.nTicks (measStart p L k) * p.tTick + 1

/-- `p_k` of measurement `k` (R188). -/
def measPolls (p : Params) (L : Nat → Level) (k : Nat) : Nat :=
  highPolls p.tTick L p.nTicks (measStart p L k)

/-- `b_k` (R188). -/
def measBit (p : Params) (L : Nat → Level) (k : Nat) : Bool :=
  decide (measPolls p L k * p.accStep > p.thresh)

/-- The response byte `b_0 + 2*b_1 + ... + 128*b_7` (R188). -/
def responseByte (p : Params) (L : Nat → Level) : Byte :=
  byteOfBits ((List.range 8).map (measBit p L))

/-- `M0 - a`, from the acceptance of a COMM to the first poll (R187). -/
def firstPoll (p : Params) : Nat := 1 + 66 * p.tBit + p.tSettle

/-- `K1`: the least number of HIGH polls that decodes as 1, when `ACC_STEP > 0` (R124). -/
def leastPolls (p : Params) : Nat := p.thresh / p.accStep + 1

/-- The bound of R190 on the cycles from the acceptance of a COMM to its response. -/
def commBound (p : Params) : Nat := 1 + 66 * p.tBit + p.tSettle + 8 * (p.nTicks * p.tTick + 1)

/-! ### Runs -/

/-- The edge is one at which a COMM is presented and `rst = 0` (R153, R66). -/
def PresentsComm (i : Input) : Prop := i.rst = false ∧ i.cmdValid = true ∧ cmdOp i.cmd = 0x3#4

/-- `n` edges in a row at which the same internal operation runs, the environment standing still. -/
def execTimes (i : Instr) (s : State) : Nat → Host.Outcome State Fault Refusal
  | 0 => .next s
  | n + 1 =>
    match execTimes i s n with
    | .next t => exec i t
    | .fault f => .fault f
    | .refused f => .refused f

/-- The host presents these words, each held until accepted, and nothing else (R191). -/
def program (ws : List Word) : List HostAct := ws.map .hold

/-- `data` after the host's commands, in acceptance order (R48, R150). -/
def dataAfter (d : Vector Byte 4) : List Word → Vector Byte 4
  | [] => d
  | w :: ws =>
    if h : cmdOp w = 0x1#4 ∧ (cmdIdx w).toNat ≤ 3 then
      dataAfter (d.set (cmdIdx w).toNat (cmdVal w) (by omega)) ws
    else dataAfter d ws

/-- `mod` after the host's commands, in acceptance order (R48, R151). -/
def modAfter (m : ModIndex) : List Word → ModIndex
  | [] => m
  | w :: ws =>
    modAfter (if cmdOp w = 0x2#4 ∧ (cmdIdx w).toNat ≤ 3 then (cmdIdx w).extractLsb' 0 2 else m) ws

/-- The end of a run (R191): every command has been accepted, `ph = IDLE` and `rsp_valid = 0`. -/
def Ended (s : State) : Prop := s.env.host = [] ∧ s.ph = .idle ∧ s.rspValid = false

end Sys2Proof.Safety
end

