-- ==== Sys2Proof/Certificates/Slice0/Obligations.lean ====
section
/-! DEFINITION. The statements for the provers, each from a numbered rule of spec/. -/

open Sys2Proof Sys2Proof.Machine Sys2Proof.Safety

/-! ### Reset -/

/-- R22: the values of every register after an edge with `rst = 1`, and in `State.reset`. `RESET_DATA` and `RESET_MOD`
are the parameters. -/
def Obligations.ResetStateValues : Prop :=
  ∀ s : State, (s = State.reset ∨ ∃ s0, (inputNow s0).rst = true ∧ step s0 = .next s) →
    s.data = params.resetData ∧ s.mod = params.resetMod ∧ s.ph = .idle ∧ s.bi = 0 ∧ s.si = 0 ∧ s.pcnt = 0 ∧
      s.acc = 0 ∧ s.tmr = 0 ∧ s.rxsh = 0 ∧ s.pinOe = false ∧ s.pinO = LOW ∧ s.rspValid = false ∧
      s.rspStatus = 0 ∧ s.rspData = 0 ∧ cmdReady s.toRegs = true ∧ busy s.toRegs = false

/-- R240, R215 (1): `rst = 1` overrides everything: the next registers are those of `ResetState` whatever the state and
the other inputs. That the environment moves on and the host's edge is spent is the model's own (log 1, 3), not R240's. -/
def Obligations.ResetOverridesEverything : Prop :=
  ∀ s : State, (inputNow s).rst = true →
    step s = .next { toRegs := State.reset.toRegs, env := envAfter s } ∧
      ∀ v w rest, s.env.host = .drive true v w :: rest → (envAfter s).host = rest

/-! ### A step runs the decoded instruction -/

/-- R153, R180, R182: at an idle edge with `rst = 0` a presented word is decoded and executed, and the environment
moves on; with nothing presented only the response registers are cleared. -/
def Obligations.StepRunsDecodedCommand : Prop :=
  ∀ s : State, (inputNow s).rst = false → s.ph = .idle →
    ((inputNow s).cmdValid = true → ∃ t, exec (decodeCmd (inputNow s).cmd) s = .next t ∧
      step s = .next { t with env := envAfter s }) ∧
    ((inputNow s).cmdValid = false →
      step s = .next { s with rspValid := false, rspStatus := 0, rspData := 0, env := envAfter s })

/-- R107, R152, R183 to R185: at a busy edge with `rst = 0` no command is read, and a step is one edge of an internal
operation. Which constructor names the edge is the model's choice (log 9), and so is SENDFRAME with its bytes as operands
(log 10): a byte in progress is SENDBYTE of `TxByte(bi)`, the end of byte 0..4 is SENDFRAME over `data` and the fresh
checksum, everything after is RECVBYTE; the environment then moves on (log 1). -/
def Obligations.StepRunsInternalOperation : Prop :=
  ∀ s : State, (inputNow s).rst = false → s.ph ≠ .idle →
    ∃ i t, exec i s = .next t ∧ step s = .next { t with env := envAfter s } ∧
      ((s.ph = .settle ∨ s.ph = .meas) → i = .recvByte) ∧
      (s.ph = .send → (0 < s.tmr ∨ s.si.toNat < 10) → i = .sendByte
        (requestByte s.data[0] s.data[1] s.data[2] s.data[3]
          (checksum params.csAccBits s.data[0] s.data[1] s.data[2] s.data[3] s.mod) s.bi)) ∧
      (s.ph = .send → s.tmr = 0 → 10 ≤ s.si.toNat → s.bi.toNat < 5 → i = .sendFrame s.data[0] s.data[1] s.data[2] s.data[3]
        (checksum params.csAccBits s.data[0] s.data[1] s.data[2] s.data[3] s.mod)) ∧
      (s.ph = .send → s.tmr = 0 → 10 ≤ s.si.toNat → 5 ≤ s.bi.toNat → i = .recvByte)

/-- R180 to R185: every step answers a next state whose registers are the spec's own `Step` of the registers and the
inputs at the edge: no fault, no refusal, in any state. The clause on `env` is about the model's own fields (log 1). -/
def Obligations.StepRefinesSpecStep : Prop :=
  ∀ s : State, ∃ t, step s = .next t ∧ t.toRegs = specStep params (inputNow s) s.toRegs ∧ t.env = envAfter s

/-! ### The host commands -/

/-- R150, whole: SETDATA's encoding, its effect on a legal channel, and its refusal of channels 4..15.
Every register not named is unchanged. -/
def Obligations.SetDataWritesOneChannelOrRefuses : Prop :=
  ∀ (ch : BitVec 4) (val : Byte) (s : State),
    decodeCmd (0x1000#16 ||| ch.setWidth 16 <<< 8 ||| val.setWidth 16) = .setData ch val ∧
    (s.ph = .idle → ∀ h : ch.toNat ≤ 3, exec (.setData ch val) s = .next { s with
      data := s.data.set ch.toNat val (by omega), rspValid := true, rspStatus := 0, rspData := 0 }) ∧
    (s.ph = .idle → 4 ≤ ch.toNat → exec (.setData ch val) s = .next { s with
      rspValid := true, rspStatus := 1, rspData := 0 })

/-- R151, whole: SETMOD's encoding, its effect, its refusal of 4..15 (never masked), `val` ignored;
and the index keeps its value through every other instruction. -/
def Obligations.SetModWritesIndexOrRefuses : Prop :=
  ∀ (idx : BitVec 4) (val : Byte) (s : State),
    decodeCmd (0x2000#16 ||| idx.setWidth 16 <<< 8 ||| val.setWidth 16) = .setMod idx val ∧
    (s.ph = .idle → idx.toNat ≤ 3 → ∃ t, exec (.setMod idx val) s = .next t ∧ t.mod.toNat = idx.toNat ∧
      t = { s with mod := t.mod, rspValid := true, rspStatus := 0, rspData := 0 }) ∧
    (s.ph = .idle → 4 ≤ idx.toNat → exec (.setMod idx val) s = .next { s with
      rspValid := true, rspStatus := 1, rspData := 0 }) ∧
    (∀ i t, (∀ idx' val', i ≠ .setMod idx' val') → exec i s = .next t → t.mod = s.mod)

/-- R182 (COMM), R70, R157: any word with `op` = 3 is a COMM, whatever its other fields; accepted, it starts the
header's start slot, gives no response now, and the framer is busy. -/
def Obligations.CommStartsTheRequest : Prop :=
  ∀ (idx : BitVec 4) (val : Byte) (s : State),
    decodeCmd (0x3000#16 ||| idx.setWidth 16 <<< 8 ||| val.setWidth 16) = .comm idx val ∧
    (s.ph = .idle → ∃ t, exec (.comm idx val) s = .next t ∧ cmdReady t.toRegs = false ∧ busy t.toRegs = true ∧
      t = { s with
        ph := .send, bi := 0, si := 0, pinOe := true, pinO := LOW, tmr := params.tBit - 1,
        rspValid := false, rspStatus := 0, rspData := 0 })

/-- R160, whole: the reserved words are all those with `op` = 0x0 or 0x4..0xF; each is answered `ERR_ILLEGAL` with no
other effect. -/
def Obligations.ReservedWordsAnswerErrIllegal : Prop :=
  ∀ (w : Word) (s : State), cmdOp w = 0x0#4 ∨ 4 ≤ (cmdOp w).toNat → s.ph = .idle →
    exec (decodeCmd w) s = .next { s with rspValid := true, rspStatus := 2, rspData := 0 }

/-- The completion of each reserved constructor: `RESERVED_0`, `RESERVED_4_7`, `RESERVED_8_F` complete at every idle
state with status 2 and 0x00 (R160, R69). -/
def Obligations.ReservedConstructorsComplete : Prop :=
  ∀ (i : Instr) (s : State), s.ph = .idle →
    ((∃ low, i = .reserved0 low) ∨ (∃ op low, i = .reserved47 op low) ∨ (∃ op low, i = .reserved8F op low)) →
    exec i s = .next { s with rspValid := true, rspStatus := 2, rspData := 0 }

/-- R153 at the level of `exec`: outside IDLE a command word has no effect and no answer; only R181's clearing remains. That
`exec` of a command is asked for outside IDLE at all is the model's choice (log 11); a step never does it. -/
def Obligations.CommandWordHasNoEffectWhileBusy : Prop :=
  ∀ (w : Word) (s : State), s.ph ≠ .idle →
    exec (decodeCmd w) s = .next { s with rspValid := false, rspStatus := 0, rspData := 0 }

/-- The frame of the six host commands (R46, R150 to R152, R160): only SETDATA writes `data`, one byte of it; only
SETMOD writes `mod`; only COMM writes the sequencer and the pin, and never `pcnt`, `acc`, `rxsh`; no command touches the
environment. -/
def Obligations.CommandFrame : Prop :=
  ∀ (w : Word) (s t : State), exec (decodeCmd w) s = .next t →
    (∀ k (hk : k < 4), (cmdOp w = 0x1#4 → k ≠ (cmdIdx w).toNat) → t.data[k] = s.data[k]) ∧
    (cmdOp w ≠ 0x2#4 → t.mod = s.mod) ∧
    (cmdOp w ≠ 0x3#4 → t.ph = s.ph ∧ t.bi = s.bi ∧ t.si = s.si ∧ t.tmr = s.tmr ∧ t.pinOe = s.pinOe ∧ t.pinO = s.pinO) ∧
    t.pcnt = s.pcnt ∧ t.acc = s.acc ∧ t.rxsh = s.rxsh ∧ t.env = s.env

/-- R211, R213, R214, seen at a step: a refused command leaves `data`, `mod`, the sequencer and the pins as they are,
shows a non-zero status with 0x00 for its response, and the framer is ready for the next command. -/
def Obligations.RefusalLeavesNoTrace : Prop :=
  ∀ s t : State, (inputNow s).rst = false → s.ph = .idle → (inputNow s).cmdValid = true →
    (((cmdOp (inputNow s).cmd = 0x1#4 ∨ cmdOp (inputNow s).cmd = 0x2#4) ∧ 4 ≤ (cmdIdx (inputNow s).cmd).toNat) ∨
      cmdOp (inputNow s).cmd = 0x0#4 ∨ 4 ≤ (cmdOp (inputNow s).cmd).toNat) →
    step s = .next t →
    t = { s with
      rspValid := true, rspData := 0, env := envAfter s,
      rspStatus := if cmdOp (inputNow s).cmd = 0x1#4 ∨ cmdOp (inputNow s).cmd = 0x2#4 then 1 else 2 } ∧
      cmdReady t.toRegs = true

/-! ### The internal operations, edge by edge and whole -/

/-- R100 to R102 (that an edge of SENDBYTE can be asked for by itself is the model's choice, log 9): SENDBYTE(v), from any state with no byte in progress, completes and drives the eleven slots of
`v`, each for exactly `T_BIT` edges with no edge between; it is over after `11 * T_BIT` edges; and it touches neither
`data`, `mod`, `bi` nor the receiver's registers. -/
def Obligations.SendByteDrivesElevenSlots : Prop :=
  ∀ (v : Byte) (s : State), byteInProgress s.toRegs = false → ∀ j n, j < 11 → n < params.tBit →
    ∃ t, execTimes (.sendByte v) s (1 + j * params.tBit + n) = .next t ∧
      t.pinOe = true ∧ (byteSlots v)[j]? = some t.pinO ∧ t.ph = .send ∧ t.si.toNat = j ∧
      t.tmr = params.tBit - 1 - n ∧ (byteInProgress t.toRegs = false ↔ j = 10 ∧ n = params.tBit - 1) ∧
      t.data = s.data ∧ t.mod = s.mod ∧ t.bi = s.bi ∧ t.pcnt = s.pcnt ∧ t.acc = s.acc ∧ t.rxsh = s.rxsh ∧
      t.rspValid = false ∧ t.rspStatus = 0 ∧ t.rspData = 0 ∧ t.env = s.env

/-- R105, R62 (begun by itself: the model's choice, log 9, 10): SENDFRAME over the bytes `FF d0 d1 d2 d3 cs`, from any state outside phase SEND, completes and drives
their 66 slots for `66 * T_BIT` consecutive edges with `pin_oe = 1`, and touches neither `data` nor `mod`. -/
def Obligations.SendFrameDrivesSixtySixSlots : Prop :=
  ∀ (d0 d1 d2 d3 cs : Byte) (s : State), s.ph ≠ .send → ∀ j n, j < 66 → n < params.tBit →
    ∃ t, execTimes (.sendFrame d0 d1 d2 d3 cs) s (1 + j * params.tBit + n) = .next t ∧
      t.pinOe = true ∧ (requestSlots d0 d1 d2 d3 cs)[j]? = some t.pinO ∧ t.ph = .send ∧
      t.bi.toNat = j / 11 ∧ t.si.toNat = j % 11 ∧ t.tmr = params.tBit - 1 - n ∧
      t.data = s.data ∧ t.mod = s.mod ∧ t.pcnt = s.pcnt ∧ t.acc = s.acc ∧ t.rxsh = s.rxsh ∧
      t.rspValid = false ∧ t.rspStatus = 0 ∧ t.rspData = 0 ∧ t.env = s.env

/-- R121, R122 (begun by itself: the model's choice, log 9): RECVBYTE, begun outside SETTLE and MEAS, releases the wire at once and waits `T_SETTLE` edges; the
measurements begin at the next one, with every measurement register 0. -/
def Obligations.RecvByteReleasesAndSettles : Prop :=
  ∀ s : State, s.ph = .idle ∨ s.ph = .send →
    (∀ n, n < params.tSettle → ∃ t, execTimes .recvByte s (1 + n) = .next t ∧
      t.ph = .settle ∧ t.pinOe = false ∧ t.pinO = LOW ∧ t.tmr = params.tSettle - 1 - n ∧ t.bi = 0 ∧ t.si = 0 ∧
      t.data = s.data ∧ t.mod = s.mod ∧ t.rspValid = false ∧ t.env = s.env) ∧
    ∃ t, execTimes .recvByte s (1 + params.tSettle) = .next t ∧ t.ph = .meas ∧ t.pinOe = false ∧ t.pinO = LOW ∧
      t.si = 0 ∧ t.pcnt = 0 ∧ t.acc = 0 ∧ t.rxsh = 0 ∧ t.tmr = 0 ∧ t.data = s.data ∧ t.mod = s.mod ∧ t.env = s.env

/-- R123, R124, R125, R185: one edge of RECVBYTE in phase MEAS, in each of its cases; every register not named is
unchanged. -/
def Obligations.RecvByteMeasurementEdge : Prop :=
  ∀ s : State, s.ph = .meas →
    (0 < s.tmr → exec .recvByte s = .next { s with
      tmr := s.tmr - 1, rspValid := false, rspStatus := 0, rspData := 0 }) ∧
    (s.tmr = 0 → s.pcnt < params.nTicks → (inputNow s).pinI = HIGH → exec .recvByte s = .next { s with
      acc := s.acc + params.accStep, pcnt := s.pcnt + 1, tmr := params.tTick - 1,
      rspValid := false, rspStatus := 0, rspData := 0 }) ∧
    (s.tmr = 0 → params.nTicks ≤ s.pcnt ∨ (inputNow s).pinI = LOW →
      (s.si.toNat < 7 → ∃ t, exec .recvByte s = .next t ∧
        (∀ k, t.rxsh.getLsbD k = if k = s.si.toNat then decide (s.acc > params.thresh) else s.rxsh.getLsbD k) ∧
        t.si.toNat = s.si.toNat + 1 ∧
        t = { s with
          rxsh := t.rxsh, si := t.si, pcnt := 0, acc := 0, tmr := 0,
          rspValid := false, rspStatus := 0, rspData := 0 }) ∧
      (s.si.toNat = 7 → ∃ t, exec .recvByte s = .next t ∧
        (∀ k, t.rspData.getLsbD k = if k = 7 then decide (s.acc > params.thresh) else s.rxsh.getLsbD k) ∧
        t = { s with
          ph := .idle, si := 0, pcnt := 0, acc := 0, tmr := 0, rxsh := 0,
          rspValid := true, rspStatus := 0, rspData := t.rspData }))

/-- R128 (begun by itself: the model's choice, log 9): a whole RECVBYTE on a line that does not change completes: LOW at every poll gives 0x00 after eight
measurement edges, HIGH at every poll gives 0xFF after `8 * (N_TICKS * T_TICK + 1)`, provided
`N_TICKS * ACC_STEP > THRESH`. Status `OK` in both. -/
def Obligations.RecvByteOfConstantLine : Prop :=
  ∀ s : State, s.ph = .idle ∨ s.ph = .send →
    ((inputNow s).pinI = LOW → ∃ t, execTimes .recvByte s (1 + params.tSettle + 8) = .next t ∧
      t.ph = .idle ∧ t.rspValid = true ∧ t.rspStatus = 0 ∧ t.rspData = 0x00) ∧
    ((inputNow s).pinI = HIGH → params.nTicks * params.accStep > params.thresh →
      ∃ t, execTimes .recvByte s (1 + params.tSettle + 8 * (params.nTicks * params.tTick + 1)) = .next t ∧
        t.ph = .idle ∧ t.rspValid = true ∧ t.rspStatus = 0 ∧ t.rspData = 0xFF)

/-- The frame of the internal operations (R100, R107, R120; an edge by itself is the model's choice, log 9): none writes `data`, `mod` or the environment; SENDBYTE does
not write `bi`; the sending operations write no measurement register and give no response; RECVBYTE never drives the
wire. -/
def Obligations.InternalOperationFrame : Prop :=
  ∀ (i : Instr) (s t : State), exec i s = .next t →
    ((∃ v, i = .sendByte v) ∨ (∃ d0 d1 d2 d3 cs, i = .sendFrame d0 d1 d2 d3 cs) →
      t.data = s.data ∧ t.mod = s.mod ∧ t.env = s.env ∧ t.pcnt = s.pcnt ∧ t.acc = s.acc ∧ t.rxsh = s.rxsh ∧
        t.rspValid = false ∧ t.rspStatus = 0 ∧ t.rspData = 0) ∧
    ((∃ v, i = .sendByte v) → t.bi = s.bi) ∧
    (i = .recvByte → t.data = s.data ∧ t.mod = s.mod ∧ t.env = s.env ∧ t.ph ≠ .send ∧
      (t.pinOe = true → s.pinOe = true) ∧ ((s.ph = .settle ∨ s.ph = .meas) → t.bi = s.bi ∧ t.pinOe = s.pinOe ∧ t.pinO = s.pinO))

/-! ### A whole bus cycle, for every legal choice of the parameters -/

/-- R187 (slots), R62, R101, R102, R105: after a COMM accepted at edge 0, with `rst = 0`, states `1 + j*T_BIT` to
`(j+1)*T_BIT` show slot `j` of the request built from `data` and `mod`, driven, for `j` = 0..65, and give no
response. -/
def Obligations.WireCarriesTheRequest : Prop :=
  ∀ (p : Params) (I : Nat → Input) (r : Regs), p.Legal → r.ph = .idle → PresentsComm (I 0) →
    (∀ n, n < 66 * p.tBit → (I n).rst = false) → ∀ j n, j < 66 → n < p.tBit →
    (specRun p I r (1 + j * p.tBit + n)).ph = .send ∧ (specRun p I r (1 + j * p.tBit + n)).pinOe = true ∧
      (frameSlots p.csAccBits r.data[0] r.data[1] r.data[2] r.data[3] r.mod)[j]? =
        some (specRun p I r (1 + j * p.tBit + n)).pinO ∧
      (specRun p I r (1 + j * p.tBit + n)).rspValid = false

/-- R187 (settle), R121, R122: the wire is released in the cycle after the last stop slot and stays so for `T_SETTLE`
states; the first measurement state is the next one. -/
def Obligations.WireReleasedThenSettles : Prop :=
  ∀ (p : Params) (I : Nat → Input) (r : Regs), p.Legal → r.ph = .idle → PresentsComm (I 0) →
    (∀ n, n < firstPoll p → (I n).rst = false) →
    (∀ n, n < p.tSettle → (specRun p I r (1 + 66 * p.tBit + n)).ph = .settle ∧
      (specRun p I r (1 + 66 * p.tBit + n)).pinOe = false) ∧
    (specRun p I r (firstPoll p)).ph = .meas ∧ (specRun p I r (firstPoll p)).tmr = 0 ∧
      (specRun p I r (firstPoll p)).si = 0 ∧ (specRun p I r (firstPoll p)).pcnt = 0 ∧
      (specRun p I r (firstPoll p)).rxsh = 0

/-- R187 to R189, R152, R154: a COMM accepted at edge 0, with `rst = 0` until it is answered, is answered exactly once,
in state `M0 + K`, with status `OK` and the byte that the line `L(c) = pin_i` at edge `M0 + c` decodes to; until then
the framer is busy and shows no response, and in state `M0 + K + 1` a response is shown exactly when a command accepted at
edge `M0 + K` responded (the last row of R187); `data` and `mod` are unchanged and the sequencer is back in the canonical idle form. -/
def Obligations.CommAnswersTheDecodedByte : Prop :=
  ∀ (p : Params) (I : Nat → Input) (r : Regs), p.Legal → r.ph = .idle → PresentsComm (I 0) →
    ∀ L : Nat → Level, (∀ c, L c = (I (firstPoll p + c)).pinI) →
    (∀ n, n < firstPoll p + measStart p L 8 → (I n).rst = false) →
    (∀ n, 1 ≤ n → n < firstPoll p + measStart p L 8 →
      busy (specRun p I r n) = true ∧ (specRun p I r n).rspValid = false) ∧
    (specRun p I r (firstPoll p + measStart p L 8)).rspValid = true ∧
    (specRun p I r (firstPoll p + measStart p L 8)).rspStatus = 0 ∧
    (specRun p I r (firstPoll p + measStart p L 8)).rspData = responseByte p L ∧
    CanonicalIdle (specRun p I r (firstPoll p + measStart p L 8)) ∧
    (specRun p I r (firstPoll p + measStart p L 8)).data = r.data ∧
    (specRun p I r (firstPoll p + measStart p L 8)).mod = r.mod ∧
    ((specRun p I r (firstPoll p + measStart p L 8 + 1)).rspValid = true ↔
      (I (firstPoll p + measStart p L 8)).rst = false ∧ (I (firstPoll p + measStart p L 8)).cmdValid = true ∧
        cmdOp (I (firstPoll p + measStart p L 8)).cmd ≠ 0x3#4)

/-- R189: `K = 8 + T_TICK * (p_0 + ... + p_7)`, and `8 <= K <= 8 * (N_TICKS * T_TICK + 1)`; each `p_k` is at most
`N_TICKS` (R126). -/
def Obligations.MeasurementLength : Prop :=
  ∀ (p : Params) (L : Nat → Level),
    (∀ k, measPolls p L k ≤ p.nTicks) ∧
    measStart p L 8 = 8 + p.tTick * ((List.range 8).map (measPolls p L)).sum ∧
    8 ≤ measStart p L 8 ∧ measStart p L 8 ≤ 8 * (p.nTicks * p.tTick + 1)

/-- R190, R252: from every state that meets the invariant, with `rst = 0`, IDLE is reached within the bound of a COMM,
whatever `pin_i` and the command port do. -/
def Obligations.IdleIsAlwaysReached : Prop :=
  ∀ (p : Params) (I : Nat → Input) (r : Regs), p.Legal → Inv p r → (∀ n, (I n).rst = false) →
    ∃ n, n < commBound p ∧ (specRun p I r n).ph = .idle

/-- R191, R48, R153: from the canonical idle form, a host that presents finitely many words, each held until accepted,
and nothing else (that the host is quiet after its list is the model's choice, log 3), sees the run end within `commBound` edges a word and one more; `data` and `mod` then hold what the
words, in the order given, wrote. -/
def Obligations.ProgramRunEnds : Prop :=
  ∀ (ws : List Word) (s : State), CanonicalIdle s.toRegs → s.env.host = program ws →
    ∃ n t, n ≤ ws.length * commBound params + 1 ∧ Host.Core.run core n s = .next t ∧ Ended t ∧
      t.data = dataAfter s.data ws ∧ t.mod = modAfter s.mod ws ∧ CanonicalIdle t.toRegs

/-! ### Whole-machine rules -/

/-- The invariant holds at reset (R22, R19). -/
def Obligations.ResetMeetsInvariant : Prop :=
  Inv params State.reset.toRegs ∧ ∀ p : Params, Inv p (resetRegs p)

/-- R12, R15 to R19, R51, R125: every step from a state that meets the invariant gives one that meets it. -/
def Obligations.StepKeepsInvariant : Prop :=
  ∀ s t : State, Inv params s.toRegs → step s = .next t → Inv params t.toRegs

/-- The same of the spec's `Step`, for every legal choice of the parameters and every input. -/
def Obligations.SpecStepKeepsInvariant : Prop :=
  ∀ (p : Params) (i : Input) (r : Regs), p.Legal → Inv p r → Inv p (specStep p i r)

/-- R192: the phase graph. With `rst = 0` a step leaves the phase as it is or takes it along
`IDLE -> SEND -> SETTLE -> MEAS -> IDLE`; IDLE is left exactly when a COMM is presented; `rst` leads to IDLE. -/
def Obligations.PhaseGraph : Prop :=
  ∀ s t : State, step s = .next t →
    ((inputNow s).rst = true → t.ph = .idle) ∧
    ((inputNow s).rst = false →
      (s.ph = .idle → (t.ph = .send ↔ (inputNow s).cmdValid = true ∧ cmdOp (inputNow s).cmd = 0x3#4) ∧
        (t.ph = .idle ∨ t.ph = .send)) ∧
      (s.ph = .send → t.ph = .send ∨ t.ph = .settle) ∧
      (s.ph = .settle → t.ph = .settle ∨ t.ph = .meas) ∧
      (s.ph = .meas → t.ph = .meas ∨ t.ph = .idle))

/-- R10, R11, R159: with `rst = 0`, only an accepted legal SETDATA changes `data` and only an accepted legal SETMOD
changes `mod`; so nothing received from the wire does, and both are constant while `ph != IDLE`. -/
def Obligations.OnlySetCommandsWriteDataAndMod : Prop :=
  ∀ s t : State, step s = .next t → (inputNow s).rst = false →
    (t.data ≠ s.data → s.ph = .idle ∧ (inputNow s).cmdValid = true ∧ cmdOp (inputNow s).cmd = 0x1#4 ∧
      (cmdIdx (inputNow s).cmd).toNat ≤ 3) ∧
    (t.mod ≠ s.mod → s.ph = .idle ∧ (inputNow s).cmdValid = true ∧ cmdOp (inputNow s).cmd = 0x2#4 ∧
      (cmdIdx (inputNow s).cmd).toNat ≤ 3)

/-- R17, R154, R181: a response is shown after an edge exactly when, with `rst = 0`, a command other than COMM was
accepted at it or the eighth measurement ended at it; in every other cycle all three response registers are 0. -/
def Obligations.ResponseExactlyWhenDue : Prop :=
  ∀ s t : State, step s = .next t →
    (t.rspValid = true ↔ (inputNow s).rst = false ∧
      ((s.ph = .idle ∧ (inputNow s).cmdValid = true ∧ cmdOp (inputNow s).cmd ≠ 0x3#4) ∨
        (s.ph = .meas ∧ s.tmr = 0 ∧ 7 ≤ s.si.toNat ∧ (params.nTicks ≤ s.pcnt ∨ (inputNow s).pinI = LOW)))) ∧
    (t.rspValid = false → t.rspStatus = 0 ∧ t.rspData = 0) ∧ t.rspStatus ≠ 3 ∧
    (t.rspData ≠ 0 → s.ph = .meas ∧ t.rspStatus = 0)

/-- R21, R216: `pin_i` is read only at a decision cycle of phase MEAS with `pcnt < N_TICKS`; at every other edge the
next registers are the same whatever the line does. -/
def Obligations.PinReadOnlyAtPolls : Prop :=
  ∀ (s : State) (pins : List Level) (edge : Nat), s.ph ≠ .meas ∨ 0 < s.tmr ∨ params.nTicks ≤ s.pcnt →
    ∃ t t', step s = .next t ∧ step { s with env := { s.env with pins := pins, edge := edge } } = .next t' ∧
      t.toRegs = t'.toRegs

/-- R153: while a bus cycle runs, what the host presents has no effect: two hosts that agree on `rst` at the edge, whatever
word each presents or does not present, give the same next registers. Of the model's own host list (log 3): a held word
is still held, a word presented for the one edge is gone and not queued. -/
def Obligations.WordPresentedWhileBusyIsNotRead : Prop :=
  ∀ (s : State) (host' : List HostAct), s.ph ≠ .idle →
    (inputNow s).rst = (inputNow { s with env := { s.env with host := host' } }).rst →
    ∃ t t', step s = .next t ∧ step { s with env := { s.env with host := host' } } = .next t' ∧
      t.toRegs = t'.toRegs ∧
      (∀ w rest, s.env.host = .hold w :: rest → t.env.host = .hold w :: rest) ∧
      (∀ r v w rest, s.env.host = .drive r v w :: rest → t.env.host = rest)

/-- R4: while the timer runs, no register changes except `tmr` (and a response shown goes, R181). -/
def Obligations.WaitingChangesOnlyTheTimer : Prop :=
  ∀ s : State, (inputNow s).rst = false → s.ph ≠ .idle → 0 < s.tmr →
    step s = .next { s with
      tmr := s.tmr - 1, rspValid := false, rspStatus := 0, rspData := 0, env := envAfter s }

/-! ### Checksum and addressing -/

/-- R143, R47: the low nibble of the checksum byte is the module index, bits 3:2 are 0, for both legal accumulator
widths. -/
def Obligations.ChecksumLowNibbleIsModuleIndex : Prop :=
  ∀ (W : Nat) (d0 d1 d2 d3 : Byte) (m : ModIndex), W = 8 ∨ W = 16 →
    (checksum W d0 d1 d2 d3 m).extractLsb' 0 4 = m.setWidth 4

/-- R142: the closed form for `W = 8`. -/
def Obligations.ChecksumClosedForm : Prop :=
  ∀ (d0 d1 d2 d3 : Byte) (m : ModIndex),
    (checksum 8 d0 d1 d2 d3 m).toNat =
      (((d0.toNat + d1.toNat + d2.toNat + d3.toNat) % 256 / 16 +
        (d0.toNat + d1.toNat + d2.toNat + d3.toNat) % 256 % 16) % 16) * 16 + m.toNat

/-- 95_test_vectors.md section 2.3: the two accumulator widths give the same byte when the data sum is below 256 and a
different high nibble otherwise. -/
def Obligations.ChecksumWidthsDifferFrom256 : Prop :=
  ∀ (d0 d1 d2 d3 : Byte) (m : ModIndex),
    (checksum 8 d0 d1 d2 d3 m).extractLsb' 4 4 = (checksum 16 d0 d1 d2 d3 m).extractLsb' 4 4 ↔
      d0.toNat + d1.toNat + d2.toNat + d3.toNat < 256

/-- R50 (Scenario C): two requests with the same data and different module indices have the same header and data bytes
and the same checksum high nibble, and differ in the low nibble. -/
def Obligations.ModuleIndexChangesOnlyTheLowNibble : Prop :=
  ∀ (W : Nat) (d0 d1 d2 d3 : Byte) (m m' : ModIndex), m ≠ m' →
    (frameBytes W d0 d1 d2 d3 m).take 5 = (frameBytes W d0 d1 d2 d3 m').take 5 ∧
    (checksum W d0 d1 d2 d3 m).extractLsb' 4 4 = (checksum W d0 d1 d2 d3 m').extractLsb' 4 4 ∧
    (checksum W d0 d1 d2 d3 m).extractLsb' 0 4 ≠ (checksum W d0 d1 d2 d3 m').extractLsb' 0 4

/-! ### The decoder -/

/-- R128, for every choice of the parameters: a line that is LOW at every poll (each measurement then polls once) decodes
as 0x00 in 8 cycles; one that is HIGH at every poll (each measurement then polls `N_TICKS` times) decodes as 0xFF after
`8 * (N_TICKS * T_TICK + 1)` cycles, if `N_TICKS * ACC_STEP > THRESH`. Between polls the line may do anything. -/
def Obligations.ConstantLineDecodes : Prop :=
  ∀ (p : Params) (L : Nat → Level),
    ((∀ k, k < 8 → L (measStart p L k) = LOW) → responseByte p L = 0x00 ∧ measStart p L 8 = 8) ∧
    ((∀ k, k < 8 → ∀ j, j < p.nTicks → L (measStart p L k + j * p.tTick) = HIGH) →
      p.nTicks * p.accStep > p.thresh →
      responseByte p L = 0xFF ∧ measStart p L 8 = 8 * (p.nTicks * p.tTick + 1))

/-- R124: a bit is 1 exactly when the estimate exceeds the threshold; with `ACC_STEP > 0`, `n` HIGH polls decode as 1 exactly when `n` is at least
`K1 = floor(THRESH / ACC_STEP) + 1`; with `ACC_STEP = 0` or `K1 > N_TICKS` no measurement decodes as 1. -/
def Obligations.LeastPollsThatDecodeAsOne : Prop :=
  ∀ p : Params,
    (∀ acc, decodeBit p.thresh acc = true ↔ acc > p.thresh) ∧
    (0 < p.accStep → ∀ n, decodeBit p.thresh (n * p.accStep) = true ↔ leastPolls p ≤ n) ∧
    ((p.accStep = 0 ∨ p.nTicks < leastPolls p) → ∀ L k, measBit p L k = false)

/-- R131: with `K1 <= N_TICKS`, measurement `k` decodes as 1 exactly when the line is HIGH at its first `K1` polls. -/
def Obligations.BitIsOneIffFirstPollsHigh : Prop :=
  ∀ (p : Params) (L : Nat → Level) (k : Nat), 0 < p.accStep → leastPolls p ≤ p.nTicks →
    (measBit p L k = true ↔ ∀ j, j < leastPolls p → L (measStart p L k + j * p.tTick) = HIGH)

/-- 41_frame_codec_receive.md section 5: a line that shows measurement `k` HIGH at its first `K1` polls if `x[k] = 1`, and
LOW at its first poll if `x[k] = 0`, decodes as `x`. -/
def Obligations.PulseCodedReplyDecodes : Prop :=
  ∀ (p : Params) (L : Nat → Level) (x : Byte), 0 < p.accStep → leastPolls p ≤ p.nTicks →
    (∀ k, k < 8 → if x.getLsbD k then ∀ j, j < leastPolls p → L (measStart p L k + j * p.tTick) = HIGH
      else L (measStart p L k) = LOW) →
    responseByte p L = x

/-! ### Encodings -/

/-- R60 to R66: every well-formed instruction, at every value of its operands, is decoded back from its encoding. -/
def Obligations.DecodeEncodeRoundTrip : Prop :=
  ∀ i : Instr, WellFormed i = true → decode (encode i) = .ok i

/-- R65, R66, R69: every one of the 65536 command words is the encoding of the instruction it decodes to; so no two
words decode alike and no bit is dropped. -/
def Obligations.EncodeDecodeCommandWords : Prop :=
  ∀ w : Word, encode (decodeCmd w) = .cmd w

/-- R60, R62: a run of slots that decodes is the encoding of what it decodes to. That it is then well formed rests on the
decoder's refusing a request with a wrong header or checksum byte, which is the model's choice (log 16): R74 says only
that the transmitter emits no other, and the framer itself decodes no request. -/
def Obligations.EncodeDecodeSlots : Prop :=
  ∀ (l : List Level) (i : Instr), decode (.slots l) = .ok i → encode i = .slots l ∧ WellFormed i = true

/-- R66: a word is the command when `w & mask = match`, for the six rows of the opcode table. -/
def Obligations.OpcodeTableRows : Prop :=
  ∀ w : Word,
    (w &&& 0xF000 = 0x1000 ↔ ∃ idx val, decodeCmd w = .setData idx val) ∧
    (w &&& 0xF000 = 0x2000 ↔ ∃ idx val, decodeCmd w = .setMod idx val) ∧
    (w &&& 0xF000 = 0x3000 ↔ ∃ idx val, decodeCmd w = .comm idx val) ∧
    (w &&& 0xF000 = 0x0000 ↔ ∃ low, decodeCmd w = .reserved0 low) ∧
    (w &&& 0xC000 = 0x4000 ↔ ∃ op low, decodeCmd w = .reserved47 op low) ∧
    (w &&& 0x8000 = 0x8000 ↔ ∃ op low, decodeCmd w = .reserved8F op low)

/-- R62: slot `j` of a request is slot `j mod 11` of byte `j / 11`, and there are 66. -/
def Obligations.RequestSlotPositions : Prop :=
  ∀ (W : Nat) (d0 d1 d2 d3 : Byte) (m : ModIndex),
    (frameSlots W d0 d1 d2 d3 m).length = 66 ∧
    ∀ j, j < 66 → (frameSlots W d0 d1 d2 d3 m)[j]? =
      ((frameBytes W d0 d1 d2 d3 m)[j / 11]?).map fun v => slotLevel v (j % 11)

/-- The words of 95_test_vectors.md section 3.3, the word 0xFFFF of V-CMD-16 and the slots of 0xA5 of section 3.1 decode to
what the spec says of them. The last clause is in no table: that any response byte decodes to `recvByte` is the model's
choice (log 15). -/
def Obligations.WordsOfTheSpecDecode : Prop :=
  decode (.cmd 0x1230) = .ok (.setData 2 0x30) ∧ decode (.cmd 0x1455) = .ok (.setData 4 0x55) ∧
  decode (.cmd 0x2100) = .ok (.setMod 1 0) ∧ decode (.cmd 0x22FF) = .ok (.setMod 2 0xFF) ∧
  decode (.cmd 0x3000) = .ok (.comm 0 0) ∧ decode (.cmd 0x3FFF) = .ok (.comm 0xF 0xFF) ∧
  decode (.cmd 0x0000) = .ok (.reserved0 0) ∧ decode (.cmd 0x7ABC) = .ok (.reserved47 3 0xABC) ∧
  decode (.cmd 0xFFFF) = .ok (.reserved8F 7 0xFFF) ∧
  decode (.slots [false, true, false, true, false, false, true, false, true, true, true]) = .ok (.sendByte 0xA5) ∧
  decode (.resp 0x7B) = .ok .recvByte
end

