-- ==== Sys2Proof/Laws/Operands.lean ====
section
/-! SUPPORT. Small facts of the value functions: slots, bits, the decoded bit. -/

namespace Sys2Proof.Machine

@[simp] theorem slotLevel_start (v : Byte) : slotLevel v 0 = LOW := rfl

@[simp] theorem slotLevel_data (v : Byte) (k : Nat) (h : k < 8) : slotLevel v (k + 1) = v.getLsbD k := by
  simp [slotLevel, Nat.succ_le_of_lt h]

theorem slotLevel_stop (v : Byte) (s : Nat) (h : 9 ≤ s) : slotLevel v s = HIGH := by
  unfold slotLevel
  rw [if_neg (by omega), if_neg (by omega)]

@[simp] theorem byteSlots_length (v : Byte) : (byteSlots v).length = 11 := by
  simp [byteSlots]

theorem byteSlots_getElem? (v : Byte) (s : Nat) (h : s < 11) : (byteSlots v)[s]? = some (slotLevel v s) := by
  simp [byteSlots, h]

/-- The bits of a byte with one bit set (R185). -/
theorem setBit_getLsbD (v : Byte) (i k : Nat) (b : Bool) (hi : i < 8) :
    (setBit v i b).getLsbD k = if k = i then b else v.getLsbD k := by
  by_cases hk : k < 8
  · unfold setBit
    interval_cases i <;> interval_cases k <;> cases b <;> simp
  · have h1 : k ≠ i := by omega
    rw [if_neg h1, BitVec.getLsbD_of_ge _ _ (by omega), BitVec.getLsbD_of_ge _ _ (by omega)]

theorem decodeBit_iff (thresh acc : Nat) : decodeBit thresh acc = true ↔ thresh < acc := by
  simp [decodeBit]

@[simp] theorem requestByte_header (d0 d1 d2 d3 cs : Byte) : requestByte d0 d1 d2 d3 cs 0 = header := rfl
@[simp] theorem requestByte_data0 (d0 d1 d2 d3 cs : Byte) : requestByte d0 d1 d2 d3 cs 1 = d0 := rfl
@[simp] theorem requestByte_data1 (d0 d1 d2 d3 cs : Byte) : requestByte d0 d1 d2 d3 cs 2 = d1 := rfl
@[simp] theorem requestByte_data2 (d0 d1 d2 d3 cs : Byte) : requestByte d0 d1 d2 d3 cs 3 = d2 := rfl
@[simp] theorem requestByte_data3 (d0 d1 d2 d3 cs : Byte) : requestByte d0 d1 d2 d3 cs 4 = d3 := rfl
@[simp] theorem requestByte_checksum (d0 d1 d2 d3 cs : Byte) : requestByte d0 d1 d2 d3 cs 5 = cs := rfl

end Sys2Proof.Machine
end

