-- ==== Sys2Proof/Laws/State.lean ====
section
/-! SUPPORT. One lemma per register per update: what each named update of the registers leaves in each register. -/

namespace Sys2Proof.Machine

/-! ### `clearRsp` (R181) -/

@[simp] theorem clearRsp_data (r : Regs) : (clearRsp r).data = r.data := rfl
@[simp] theorem clearRsp_mod (r : Regs) : (clearRsp r).mod = r.mod := rfl
@[simp] theorem clearRsp_rspValid (r : Regs) : (clearRsp r).rspValid = false := rfl
@[simp] theorem clearRsp_rspStatus (r : Regs) : (clearRsp r).rspStatus = 0 := rfl
@[simp] theorem clearRsp_rspData (r : Regs) : (clearRsp r).rspData = 0 := rfl
@[simp] theorem clearRsp_ph (r : Regs) : (clearRsp r).ph = r.ph := rfl
@[simp] theorem clearRsp_bi (r : Regs) : (clearRsp r).bi = r.bi := rfl
@[simp] theorem clearRsp_si (r : Regs) : (clearRsp r).si = r.si := rfl
@[simp] theorem clearRsp_pcnt (r : Regs) : (clearRsp r).pcnt = r.pcnt := rfl
@[simp] theorem clearRsp_acc (r : Regs) : (clearRsp r).acc = r.acc := rfl
@[simp] theorem clearRsp_tmr (r : Regs) : (clearRsp r).tmr = r.tmr := rfl
@[simp] theorem clearRsp_rxsh (r : Regs) : (clearRsp r).rxsh = r.rxsh := rfl
@[simp] theorem clearRsp_pinOe (r : Regs) : (clearRsp r).pinOe = r.pinOe := rfl
@[simp] theorem clearRsp_pinO (r : Regs) : (clearRsp r).pinO = r.pinO := rfl

/-! ### `respond` (R17) -/

@[simp] theorem respond_data (st : Status) (d : Byte) (r : Regs) : (respond st d r).data = r.data := rfl
@[simp] theorem respond_mod (st : Status) (d : Byte) (r : Regs) : (respond st d r).mod = r.mod := rfl
@[simp] theorem respond_rspValid (st : Status) (d : Byte) (r : Regs) : (respond st d r).rspValid = true := rfl
@[simp] theorem respond_rspStatus (st : Status) (d : Byte) (r : Regs) : (respond st d r).rspStatus = st.code := rfl
@[simp] theorem respond_rspData (st : Status) (d : Byte) (r : Regs) : (respond st d r).rspData = d := rfl
@[simp] theorem respond_ph (st : Status) (d : Byte) (r : Regs) : (respond st d r).ph = r.ph := rfl
@[simp] theorem respond_bi (st : Status) (d : Byte) (r : Regs) : (respond st d r).bi = r.bi := rfl
@[simp] theorem respond_si (st : Status) (d : Byte) (r : Regs) : (respond st d r).si = r.si := rfl
@[simp] theorem respond_pcnt (st : Status) (d : Byte) (r : Regs) : (respond st d r).pcnt = r.pcnt := rfl
@[simp] theorem respond_acc (st : Status) (d : Byte) (r : Regs) : (respond st d r).acc = r.acc := rfl
@[simp] theorem respond_tmr (st : Status) (d : Byte) (r : Regs) : (respond st d r).tmr = r.tmr := rfl
@[simp] theorem respond_rxsh (st : Status) (d : Byte) (r : Regs) : (respond st d r).rxsh = r.rxsh := rfl
@[simp] theorem respond_pinOe (st : Status) (d : Byte) (r : Regs) : (respond st d r).pinOe = r.pinOe := rfl
@[simp] theorem respond_pinO (st : Status) (d : Byte) (r : Regs) : (respond st d r).pinO = r.pinO := rfl

/-! ### `raise` (R213) -/

@[simp] theorem raise_data (st : Status) (r : Regs) : (raise st r).data = r.data := rfl
@[simp] theorem raise_mod (st : Status) (r : Regs) : (raise st r).mod = r.mod := rfl
@[simp] theorem raise_rspValid (st : Status) (r : Regs) : (raise st r).rspValid = true := rfl
@[simp] theorem raise_rspStatus (st : Status) (r : Regs) : (raise st r).rspStatus = st.code := rfl
@[simp] theorem raise_rspData (st : Status) (r : Regs) : (raise st r).rspData = 0 := rfl
@[simp] theorem raise_ph (st : Status) (r : Regs) : (raise st r).ph = r.ph := rfl
@[simp] theorem raise_bi (st : Status) (r : Regs) : (raise st r).bi = r.bi := rfl
@[simp] theorem raise_si (st : Status) (r : Regs) : (raise st r).si = r.si := rfl
@[simp] theorem raise_pcnt (st : Status) (r : Regs) : (raise st r).pcnt = r.pcnt := rfl
@[simp] theorem raise_acc (st : Status) (r : Regs) : (raise st r).acc = r.acc := rfl
@[simp] theorem raise_tmr (st : Status) (r : Regs) : (raise st r).tmr = r.tmr := rfl
@[simp] theorem raise_rxsh (st : Status) (r : Regs) : (raise st r).rxsh = r.rxsh := rfl
@[simp] theorem raise_pinOe (st : Status) (r : Regs) : (raise st r).pinOe = r.pinOe := rfl
@[simp] theorem raise_pinO (st : Status) (r : Regs) : (raise st r).pinO = r.pinO := rfl

/-! ### `drive` (R16) -/

@[simp] theorem drive_data (l : Level) (r : Regs) : (drive l r).data = r.data := rfl
@[simp] theorem drive_mod (l : Level) (r : Regs) : (drive l r).mod = r.mod := rfl
@[simp] theorem drive_rspValid (l : Level) (r : Regs) : (drive l r).rspValid = r.rspValid := rfl
@[simp] theorem drive_rspStatus (l : Level) (r : Regs) : (drive l r).rspStatus = r.rspStatus := rfl
@[simp] theorem drive_rspData (l : Level) (r : Regs) : (drive l r).rspData = r.rspData := rfl
@[simp] theorem drive_ph (l : Level) (r : Regs) : (drive l r).ph = r.ph := rfl
@[simp] theorem drive_bi (l : Level) (r : Regs) : (drive l r).bi = r.bi := rfl
@[simp] theorem drive_si (l : Level) (r : Regs) : (drive l r).si = r.si := rfl
@[simp] theorem drive_pcnt (l : Level) (r : Regs) : (drive l r).pcnt = r.pcnt := rfl
@[simp] theorem drive_acc (l : Level) (r : Regs) : (drive l r).acc = r.acc := rfl
@[simp] theorem drive_tmr (l : Level) (r : Regs) : (drive l r).tmr = r.tmr := rfl
@[simp] theorem drive_rxsh (l : Level) (r : Regs) : (drive l r).rxsh = r.rxsh := rfl
@[simp] theorem drive_pinOe (l : Level) (r : Regs) : (drive l r).pinOe = true := rfl
@[simp] theorem drive_pinO (l : Level) (r : Regs) : (drive l r).pinO = l := rfl

/-! ### `release` (R16) -/

@[simp] theorem release_data (r : Regs) : (release r).data = r.data := rfl
@[simp] theorem release_mod (r : Regs) : (release r).mod = r.mod := rfl
@[simp] theorem release_rspValid (r : Regs) : (release r).rspValid = r.rspValid := rfl
@[simp] theorem release_rspStatus (r : Regs) : (release r).rspStatus = r.rspStatus := rfl
@[simp] theorem release_rspData (r : Regs) : (release r).rspData = r.rspData := rfl
@[simp] theorem release_ph (r : Regs) : (release r).ph = r.ph := rfl
@[simp] theorem release_bi (r : Regs) : (release r).bi = r.bi := rfl
@[simp] theorem release_si (r : Regs) : (release r).si = r.si := rfl
@[simp] theorem release_pcnt (r : Regs) : (release r).pcnt = r.pcnt := rfl
@[simp] theorem release_acc (r : Regs) : (release r).acc = r.acc := rfl
@[simp] theorem release_tmr (r : Regs) : (release r).tmr = r.tmr := rfl
@[simp] theorem release_rxsh (r : Regs) : (release r).rxsh = r.rxsh := rfl
@[simp] theorem release_pinOe (r : Regs) : (release r).pinOe = false := rfl
@[simp] theorem release_pinO (r : Regs) : (release r).pinO = LOW := rfl

/-! ### `wait` (R4) -/

@[simp] theorem wait_data (n : Nat) (r : Regs) : (wait n r).data = r.data := rfl
@[simp] theorem wait_mod (n : Nat) (r : Regs) : (wait n r).mod = r.mod := rfl
@[simp] theorem wait_rspValid (n : Nat) (r : Regs) : (wait n r).rspValid = r.rspValid := rfl
@[simp] theorem wait_rspStatus (n : Nat) (r : Regs) : (wait n r).rspStatus = r.rspStatus := rfl
@[simp] theorem wait_rspData (n : Nat) (r : Regs) : (wait n r).rspData = r.rspData := rfl
@[simp] theorem wait_ph (n : Nat) (r : Regs) : (wait n r).ph = r.ph := rfl
@[simp] theorem wait_bi (n : Nat) (r : Regs) : (wait n r).bi = r.bi := rfl
@[simp] theorem wait_si (n : Nat) (r : Regs) : (wait n r).si = r.si := rfl
@[simp] theorem wait_pcnt (n : Nat) (r : Regs) : (wait n r).pcnt = r.pcnt := rfl
@[simp] theorem wait_acc (n : Nat) (r : Regs) : (wait n r).acc = r.acc := rfl
@[simp] theorem wait_tmr (n : Nat) (r : Regs) : (wait n r).tmr = n - 1 := rfl
@[simp] theorem wait_rxsh (n : Nat) (r : Regs) : (wait n r).rxsh = r.rxsh := rfl
@[simp] theorem wait_pinOe (n : Nat) (r : Regs) : (wait n r).pinOe = r.pinOe := rfl
@[simp] theorem wait_pinO (n : Nat) (r : Regs) : (wait n r).pinO = r.pinO := rfl

/-! ### `countDown` (R4) -/

@[simp] theorem countDown_data (r : Regs) : (countDown r).data = r.data := rfl
@[simp] theorem countDown_mod (r : Regs) : (countDown r).mod = r.mod := rfl
@[simp] theorem countDown_rspValid (r : Regs) : (countDown r).rspValid = r.rspValid := rfl
@[simp] theorem countDown_rspStatus (r : Regs) : (countDown r).rspStatus = r.rspStatus := rfl
@[simp] theorem countDown_rspData (r : Regs) : (countDown r).rspData = r.rspData := rfl
@[simp] theorem countDown_ph (r : Regs) : (countDown r).ph = r.ph := rfl
@[simp] theorem countDown_bi (r : Regs) : (countDown r).bi = r.bi := rfl
@[simp] theorem countDown_si (r : Regs) : (countDown r).si = r.si := rfl
@[simp] theorem countDown_pcnt (r : Regs) : (countDown r).pcnt = r.pcnt := rfl
@[simp] theorem countDown_acc (r : Regs) : (countDown r).acc = r.acc := rfl
@[simp] theorem countDown_tmr (r : Regs) : (countDown r).tmr = r.tmr - 1 := rfl
@[simp] theorem countDown_rxsh (r : Regs) : (countDown r).rxsh = r.rxsh := rfl
@[simp] theorem countDown_pinOe (r : Regs) : (countDown r).pinOe = r.pinOe := rfl
@[simp] theorem countDown_pinO (r : Regs) : (countDown r).pinO = r.pinO := rfl

/-! ### `toIdle` (R19) -/

@[simp] theorem toIdle_data (r : Regs) : (toIdle r).data = r.data := rfl
@[simp] theorem toIdle_mod (r : Regs) : (toIdle r).mod = r.mod := rfl
@[simp] theorem toIdle_rspValid (r : Regs) : (toIdle r).rspValid = r.rspValid := rfl
@[simp] theorem toIdle_rspStatus (r : Regs) : (toIdle r).rspStatus = r.rspStatus := rfl
@[simp] theorem toIdle_rspData (r : Regs) : (toIdle r).rspData = r.rspData := rfl
@[simp] theorem toIdle_ph (r : Regs) : (toIdle r).ph = .idle := rfl
@[simp] theorem toIdle_bi (r : Regs) : (toIdle r).bi = 0 := rfl
@[simp] theorem toIdle_si (r : Regs) : (toIdle r).si = 0 := rfl
@[simp] theorem toIdle_pcnt (r : Regs) : (toIdle r).pcnt = 0 := rfl
@[simp] theorem toIdle_acc (r : Regs) : (toIdle r).acc = 0 := rfl
@[simp] theorem toIdle_tmr (r : Regs) : (toIdle r).tmr = 0 := rfl
@[simp] theorem toIdle_rxsh (r : Regs) : (toIdle r).rxsh = 0 := rfl
@[simp] theorem toIdle_pinOe (r : Regs) : (toIdle r).pinOe = false := rfl
@[simp] theorem toIdle_pinO (r : Regs) : (toIdle r).pinO = LOW := rfl

/-! ### `State.onRegs` -/

@[simp] theorem onRegs_toRegs (s : State) (f : Regs → Regs) : (s.onRegs f).toRegs = f s.toRegs := rfl
@[simp] theorem onRegs_env (s : State) (f : Regs → Regs) : (s.onRegs f).env = s.env := rfl

/-! ### The status outputs read only `ph` (R18) -/

@[simp] theorem cmdReady_iff (r : Regs) : cmdReady r = true ↔ r.ph = .idle := by
  simp [cmdReady]

@[simp] theorem cmdReady_eq_false_iff (r : Regs) : cmdReady r = false ↔ r.ph ≠ .idle := by
  simp [cmdReady]

@[simp] theorem cmdReady_clearRsp (r : Regs) : cmdReady (clearRsp r) = cmdReady r := rfl

end Sys2Proof.Machine
end

