-- ==== Sys2Proof/Laws/Ops.lean ====
section
/-! SUPPORT. One lemma per shared operation: everything it can do; and what each leaves alone. -/

namespace Sys2Proof.Machine

/-! ### Accepting a command (R153) -/

theorem accept_idle (f : Regs → Regs) (r : Regs) (h : r.ph = .idle) : accept f r = f (clearRsp r) := by
  simp [accept, h]

theorem accept_busy (f : Regs → Regs) (r : Regs) (h : r.ph ≠ .idle) : accept f r = clearRsp r := by
  simp [accept, h]

theorem writeData_legal (idx : BitVec 4) (val : Byte) (r : Regs) (h : idx.toNat ≤ 3) :
    writeData idx val r =
      respond .ok 0 { r with data := r.data.set idx.toNat val (Nat.lt_succ_of_le h) } := by
  simp [writeData, h]

theorem writeData_illegal (idx : BitVec 4) (val : Byte) (r : Regs) (h : ¬ idx.toNat ≤ 3) :
    writeData idx val r = raise .errConfig r := by
  simp [writeData, h]

theorem writeMod_legal (idx : BitVec 4) (r : Regs) (h : idx.toNat ≤ 3) :
    writeMod idx r = respond .ok 0 { r with mod := idx.extractLsb' 0 2 } := by
  simp [writeMod, h]

theorem writeMod_illegal (idx : BitVec 4) (r : Regs) (h : ¬ idx.toNat ≤ 3) :
    writeMod idx r = raise .errConfig r := by
  simp [writeMod, h]

/-! ### Sending (R183) -/

theorem byteInProgress_iff (r : Regs) :
    byteInProgress r = true ↔ r.ph = .send ∧ (0 < r.tmr ∨ r.si.toNat < 10) := by
  simp [byteInProgress]

/-- Everything a cycle within a byte can do. -/
theorem slotEdge_cases (p : Params) (v : Byte) (r : Regs) :
    (0 < r.tmr ∧ slotEdge p v r = countDown r) ∨
    (r.tmr = 0 ∧ slotEdge p v r =
      { r with si := r.si + 1, pinO := slotLevel v (r.si.toNat + 1), tmr := p.tBit - 1 }) := by
  unfold slotEdge
  split
  · exact .inl ⟨‹_›, rfl⟩
  · exact .inr ⟨by omega, rfl⟩

/-- Everything a cycle of SENDBYTE can do. -/
theorem sendByteEdge_cases (p : Params) (v : Byte) (r : Regs) :
    (byteInProgress r = true ∧ sendByteEdge p v r = slotEdge p v r) ∨
    (byteInProgress r = false ∧ sendByteEdge p v r =
      { r with ph := .send, si := 0, pinOe := true, pinO := LOW, tmr := p.tBit - 1 }) := by
  unfold sendByteEdge
  cases h : byteInProgress r
  · exact .inr ⟨rfl, rfl⟩
  · exact .inl ⟨rfl, rfl⟩

/-- Everything a cycle of SENDFRAME can do. -/
theorem sendFrameEdge_cases (p : Params) (bytes : BitVec 3 → Byte) (r : Regs) :
    (byteInProgress r = true ∧ sendFrameEdge p bytes r = slotEdge p (bytes r.bi) r) ∨
    (byteInProgress r = false ∧ r.ph = .send ∧ r.bi.toNat < 5 ∧ sendFrameEdge p bytes r =
      { r with bi := r.bi + 1, si := 0, pinO := LOW, tmr := p.tBit - 1 }) ∨
    (byteInProgress r = false ∧ ¬ (r.ph = .send ∧ r.bi.toNat < 5) ∧ sendFrameEdge p bytes r =
      { r with ph := .send, bi := 0, si := 0, pinOe := true, pinO := LOW, tmr := p.tBit - 1 }) := by
  unfold sendFrameEdge
  cases h : byteInProgress r
  · by_cases hb : r.ph = .send ∧ r.bi.toNat < 5
    · exact .inr (.inl ⟨rfl, hb.1, hb.2, by simp [hb, nextByte, wait]⟩)
    · exact .inr (.inr ⟨rfl, hb, by simp [hb, startFrame, startByte, wait, drive]⟩)
  · exact .inl ⟨rfl, rfl⟩

/-! ### Receiving (R184, R185) -/

theorem startReceive_eq (p : Params) (r : Regs) :
    startReceive p r =
      { r with ph := .settle, bi := 0, si := 0, pinOe := false, pinO := LOW, tmr := p.tSettle - 1 } := rfl

/-- Everything a cycle of the settle delay can do. -/
theorem settleEdge_cases (r : Regs) :
    (0 < r.tmr ∧ settleEdge r = countDown r) ∨
    (r.tmr = 0 ∧ settleEdge r = { r with ph := .meas, si := 0, pcnt := 0, acc := 0, rxsh := 0, tmr := 0 }) := by
  unfold settleEdge
  split
  · exact .inl ⟨‹_›, rfl⟩
  · exact .inr ⟨by omega, rfl⟩

/-- Everything the end of a bit can do. -/
theorem endBit_cases (p : Params) (r : Regs) :
    (r.si.toNat < 7 ∧ endBit p r =
      { r with rxsh := withDecodedBit p r, si := r.si + 1, pcnt := 0, acc := 0, tmr := 0 }) ∨
    (7 ≤ r.si.toNat ∧ endBit p r =
      { r with
        ph := .idle, si := 0, pcnt := 0, acc := 0, tmr := 0, rxsh := 0
        rspValid := true, rspStatus := 0, rspData := withDecodedBit p r }) := by
  unfold endBit
  split
  · exact .inl ⟨‹_›, rfl⟩
  · exact .inr ⟨by omega, rfl⟩

/-- Everything a cycle of the measurements can do. -/
theorem measureEdge_cases (p : Params) (pin : Level) (r : Regs) :
    (0 < r.tmr ∧ measureEdge p pin r = countDown r) ∨
    (r.tmr = 0 ∧ r.pcnt < p.nTicks ∧ pin = HIGH ∧ measureEdge p pin r =
      { r with acc := r.acc + p.accStep, pcnt := r.pcnt + 1, tmr := p.tTick - 1 }) ∨
    (r.tmr = 0 ∧ ¬ (r.pcnt < p.nTicks ∧ pin = HIGH) ∧ measureEdge p pin r = endBit p r) := by
  unfold measureEdge
  by_cases ht : 0 < r.tmr
  · exact .inl ⟨ht, if_pos ht⟩
  · by_cases hp : r.pcnt < p.nTicks ∧ pin = HIGH
    · exact .inr (.inl ⟨by omega, hp.1, hp.2, by rw [if_neg ht, if_pos hp]; rfl⟩)
    · exact .inr (.inr ⟨by omega, hp, by rw [if_neg ht, if_neg hp]⟩)

theorem recvByteEdge_settle (p : Params) (pin : Level) (r : Regs) (h : r.ph = .settle) :
    recvByteEdge p pin r = settleEdge r := by
  simp [recvByteEdge, h]

theorem recvByteEdge_meas (p : Params) (pin : Level) (r : Regs) (h : r.ph = .meas) :
    recvByteEdge p pin r = measureEdge p pin r := by
  simp [recvByteEdge, h]

theorem recvByteEdge_start (p : Params) (pin : Level) (r : Regs) (h : r.ph = .idle ∨ r.ph = .send) :
    recvByteEdge p pin r = startReceive p r := by
  rcases h with h | h <;> simp [recvByteEdge, h]

/-! ### Memory of a host's edge -/

@[simp] theorem envAfter_pins (s : State) : (envAfter s).pins = s.env.pins.tail := rfl
@[simp] theorem envAfter_edge (s : State) : (envAfter s).edge = s.env.edge + 1 := rfl
@[simp] theorem envAfter_host (s : State) :
    (envAfter s).host = hostAfter (cmdReady s.toRegs) s.env.host := rfl

end Sys2Proof.Machine
end

