-- ==== Sys2Proof/Laws/PerInstr.lean ====
section
/-! SUPPORT. Per instruction: its encoding has the fixed bits its row of spec/opcode_table.json gives it. -/

namespace Sys2Proof.Laws.MatchesTable

/-- The fixed bits of a row: `match`/`mask` for a command word (R66); the header byte and the start and stop slots of
every byte for a run of slots (R60, R62). -/
def Statement (i : Instr) : Prop :=
  match i, encode i with
  | .setData _ _, .cmd w => w &&& 0xF000 = 0x1000
  | .setMod _ _, .cmd w => w &&& 0xF000 = 0x2000
  | .comm _ _, .cmd w => w &&& 0xF000 = 0x3000
  | .reserved0 _, .cmd w => w &&& 0xF000 = 0x0000
  | .reserved47 _ _, .cmd w => w &&& 0xC000 = 0x4000
  | .reserved8F _ _, .cmd w => w &&& 0x8000 = 0x8000
  | .sendByte _, .slots l => l.length = 11 ∧ l[0]? = some LOW ∧ l[9]? = some HIGH ∧ l[10]? = some HIGH
  | .sendFrame _ _ _ _ _, .slots l => l.length = 66 ∧ l.take 11 = Machine.byteSlots 0xFF ∧
      ∀ k < 6, l[11 * k]? = some LOW ∧ l[11 * k + 9]? = some HIGH ∧ l[11 * k + 10]? = some HIGH
  | .recvByte, .resp _ => True
  | _, _ => False

theorem setData (idx : BitVec 4) (val : Byte) : Statement (.setData idx val) := by
  show ((0x1#4 ++ idx) ++ val) &&& ((0xF#4 ++ 0#4) ++ 0#8) = _
  rw [BitVec.and_append, BitVec.and_append, BitVec.and_zero, BitVec.and_zero]
  rfl

theorem setMod (idx : BitVec 4) (val : Byte) : Statement (.setMod idx val) := by
  show ((0x2#4 ++ idx) ++ val) &&& ((0xF#4 ++ 0#4) ++ 0#8) = _
  rw [BitVec.and_append, BitVec.and_append, BitVec.and_zero, BitVec.and_zero]
  rfl

theorem comm (idx : BitVec 4) (val : Byte) : Statement (.comm idx val) := by
  show ((0x3#4 ++ idx) ++ val) &&& ((0xF#4 ++ 0#4) ++ 0#8) = _
  rw [BitVec.and_append, BitVec.and_append, BitVec.and_zero, BitVec.and_zero]
  rfl

theorem reserved0 (low : BitVec 12) : Statement (.reserved0 low) := by
  show (0x0#4 ++ low) &&& (0xF#4 ++ 0#12) = _
  rw [BitVec.and_append, BitVec.and_zero]
  rfl

theorem reserved47 (op : BitVec 2) (low : BitVec 12) : Statement (.reserved47 op low) := by
  show ((0b01#2 ++ op) ++ low) &&& ((0b11#2 ++ 0#2) ++ 0#12) = _
  rw [BitVec.and_append, BitVec.and_append, BitVec.and_zero, BitVec.and_zero]
  rfl

theorem reserved8F (op : BitVec 3) (low : BitVec 12) : Statement (.reserved8F op low) := by
  show ((0b1#1 ++ op) ++ low) &&& ((0b1#1 ++ 0#3) ++ 0#12) = _
  rw [BitVec.and_append, BitVec.and_append, BitVec.and_zero, BitVec.and_zero]
  rfl

theorem sendByte (v : Byte) : Statement (.sendByte v) := by
  simp [Statement, encode, Machine.byteSlots, Machine.slotLevel]

theorem sendFrame (d0 d1 d2 d3 cs : Byte) : Statement (.sendFrame d0 d1 d2 d3 cs) := by
  refine ⟨rfl, rfl, fun k hk => ?_⟩
  interval_cases k <;> exact ⟨rfl, rfl, rfl⟩

theorem recvByte : Statement .recvByte := trivial

end Sys2Proof.Laws.MatchesTable
end

