-- ==== Sys2Proof/Laws/Step.lean ====
section
/-! SUPPORT. What `exec` and `step` answer: the registers and the environment, once for every instruction and every edge. -/

namespace Sys2Proof.Machine

/-- The registers after an instruction, given the level of `pin_i` at the edge. -/
def effect (i : Instr) (pin : Level) (r : Regs) : Regs :=
  match i with
  | .setData idx val => accept (writeData idx val) r
  | .setMod idx _ => accept (writeMod idx) r
  | .comm _ _ => accept (startFrame params) r
  | .reserved0 _ => accept (raise .errIllegal) r
  | .reserved47 _ _ => accept (raise .errIllegal) r
  | .reserved8F _ _ => accept (raise .errIllegal) r
  | .sendByte v => sendByteEdge params v (clearRsp r)
  | .sendFrame d0 d1 d2 d3 cs => sendFrameEdge params (requestByte d0 d1 d2 d3 cs) (clearRsp r)
  | .recvByte => recvByteEdge params pin (clearRsp r)

/-- Every instruction answers a next state, changes the registers only, and reads nothing of the environment but
`pin_i`. -/
theorem exec_eq (i : Instr) (s : State) :
    exec i s = .next { s with toRegs := effect i (inputNow s).pinI s.toRegs } := by
  cases i <;> rfl

/-- A step is a reset edge, a quiet edge, or one instruction; the environment moves on in all three. -/
theorem step_eq (s : State) :
    step s = .next
      { toRegs :=
          if (inputNow s).rst then resetRegs params
          else match fetch s with
            | none => clearRsp s.toRegs
            | some i => effect i (inputNow s).pinI s.toRegs
        env := envAfter s } := by
  unfold step
  cases (inputNow s).rst
  · cases h : fetch s with
    | none => rfl
    | some i => simp [exec_eq]
  · rfl

/-- What is fetched, phase by phase. -/
theorem fetch_cases (s : State) :
    (s.ph = .idle ∧ (inputNow s).cmdValid = false ∧ fetch s = none) ∨
    (s.ph = .idle ∧ (inputNow s).cmdValid = true ∧ fetch s = some (decodeCmd (inputNow s).cmd)) ∨
    (s.ph = .send ∧ fetch s = some (fetchSend params s.toRegs)) ∨
    ((s.ph = .settle ∨ s.ph = .meas) ∧ fetch s = some .recvByte) := by
  unfold fetch
  cases h : s.ph <;> cases hv : (inputNow s).cmdValid <;> simp

end Sys2Proof.Machine
end

