-- ==== Sys2Proof/Tests/Slice0.lean ====
section
/-! SUPPORT. Tests: words and slots of the spec's tables, single steps of 95_test_vectors.md, ill-formed terms, and a witness for the hypotheses of each statement. -/

namespace Sys2Proof.Tests

open Sys2Proof Sys2Proof.Machine Sys2Proof.Safety

/-! ### Helpers -/

/-- Idle, `data = 10 20 30 40`, `mod = 0` (95_test_vectors.md section 6), with this to come from the host. -/
def idle6 (host : List HostAct) : State :=
  { State.reset with data := #v[0x10, 0x20, 0x30, 0x40], env := { host := host, pins := [], edge := 0 } }

/-- In SEND, the same data, at this slot and timer (V-TX-4). -/
def sending (bi : BitVec 3) (si : BitVec 4) (tmr : Nat) (l : Level) : State :=
  { idle6 [] with ph := .send, bi := bi, si := si, tmr := tmr, pinOe := true, pinO := l }

/-- In MEAS, with these registers and this level on the line. -/
def measuring (si : BitVec 4) (pcnt acc tmr : Nat) (rxsh : Byte) (pin : Level) : State :=
  { idle6 [] with
    ph := .meas, si := si, pcnt := pcnt, acc := acc, tmr := tmr, rxsh := rxsh
    env := { host := [], pins := [pin], edge := 0 } }

/-- What a test reads of an outcome: a property of the next state. -/
def nextHas (o : Host.Outcome State Fault Refusal) (q : State → Bool) : Bool :=
  match o with
  | .next t => q t
  | .fault _ => false
  | .refused _ => false

/-- The response shown, as `(valid, status, data)`. -/
def rsp (t : State) : Bool × BitVec 2 × Byte := (t.rspValid, t.rspStatus, t.rspData)

/-! ### Ill-formed terms are refused (R63, R74; R60, R62) -/

theorem test_wellFormed_request : WellFormed (.sendFrame 0x10 0x20 0x30 0x40 0xA1) = true := by decide
theorem test_illFormed_csLayout : WellFormed (.sendFrame 0x10 0x20 0x30 0x40 0xA4) = false := by decide
theorem test_illFormed_csFold : WellFormed (.sendFrame 0x10 0x20 0x30 0x40 0xB0) = false := by decide
theorem test_refuse_length : decode (.slots [false, true]) = .error (.wrongLength 2) := by decide
theorem test_refuse_start :
    decode (.slots [true, true, false, true, false, false, true, false, true, true, true]) = .error (.noStart 0) := by
  decide
theorem test_refuse_stop :
    decode (.slots [false, true, false, true, false, false, true, false, true, true, false]) = .error (.noStop 0) := by
  decide
theorem test_refuse_checksum :
    decode (.slots (requestSlots 0x10 0x20 0x30 0x40 0xB0)) = .error (.badChecksum 0xB0) := by decide
theorem test_refuse_header :
    decode (.slots (byteSlots 0x7F ++ (requestSlots 0x10 0x20 0x30 0x40 0xA0).drop 11)) = .error (.badHeader 0x7F) := by
  decide

/-! ### Words written out from the encoding (R65, R66; 95_test_vectors.md section 3.3) -/

/-- op 0001, idx 0010, val 00110000. -/
theorem test_decode_setData : decodeCmd 0b0001001000110000 = .setData 2 0x30 := by decide
/-- op 0010, idx 0010, val 11111111. -/
theorem test_decode_setMod : decodeCmd 0b0010001011111111 = .setMod 2 0xFF := by decide
/-- op 0011, all other bits set. -/
theorem test_decode_comm : decodeCmd 0b0011111111111111 = .comm 0xF 0xFF := by decide
/-- op 0000. -/
theorem test_decode_reserved0 : decodeCmd 0b0000010110000001 = .reserved0 0x581 := by decide
/-- op 0111: bits 15:14 = 01. -/
theorem test_decode_reserved47 : decodeCmd 0b0111101010111100 = .reserved47 0b11 0xABC := by decide
theorem test_decode_reserved4 : decodeCmd 0x4000 = .reserved47 0 0 := by decide
/-- op 1010: bit 15 = 1. -/
theorem test_decode_reserved8F : decodeCmd 0b1010000000000001 = .reserved8F 0b010 1 := by decide

/-- `ByteSlots(0xA5)` = `01010010111` (section 3.1), the table's string read as a number. -/
theorem test_decode_sendByte : decodeTableWord 11 0b01010010111 = some (.sendByte 0xA5) := by decide
/-- The six lines of section 3.2. -/
theorem test_decode_sendFrame :
    decodeTableWord 72 0b011111111110000010001100000010011000001100110000000101100000010111 =
      some (.sendFrame 0x10 0x20 0x30 0x40 0xA0) := by decide
theorem test_decode_recvByte : decodeTableWord 8 0x7B = some .recvByte := by decide
/-- The table's patterns with every letter 0. -/
theorem test_decode_sendByte_zero : decodeTableWord 11 0b00000000011 = some (.sendByte 0) := by decide
theorem test_byteSlots_92 :
    byteSlots 0x92 = [false, false, true, false, false, true, false, false, true, true, true] := by decide

/-! ### Checksums (95_test_vectors.md section 2) -/

theorem test_checksum_scenarioA : checksum 8 0x10 0x20 0x30 0x40 0 = 0xA0 := by decide
theorem test_checksum_wraps : checksum 8 0xAB 0xCD 0xEF 0x01 3 = 0xE3 := by decide
theorem test_checksum_wide : checksum 16 0xAB 0xCD 0xEF 0x01 3 = 0x03 := by decide
theorem test_checksum_maximum : checksum 16 0xFF 0xFF 0xFF 0xFF 2 = 0xE2 := by decide

/-! ### Commands (V-CMD) and reset (V-RST) -/

/-- V-CMD-1. -/
theorem test_setData :
    nextHas (step (idle6 [.hold 0x1077]))
      (fun t => t.data == #v[0x77, 0x20, 0x30, 0x40] && rsp t == (true, 0, 0) && t.env.host == []) = true := by decide
/-- V-CMD-5: index 4 is refused, not clamped. -/
theorem test_setData_refused :
    nextHas (step (idle6 [.hold 0x1455]))
      (fun t => t.data == #v[0x10, 0x20, 0x30, 0x40] && rsp t == (true, 1, 0)) = true := by decide
/-- V-CMD-10: `val` is ignored. -/
theorem test_setMod : nextHas (step (idle6 [.hold 0x22FF])) (fun t => t.mod == 2 && rsp t == (true, 0, 0)) = true := by decide
/-- V-CMD-9: index 7 is not masked to 3. -/
theorem test_setMod_refused :
    nextHas (step (idle6 [.hold 0x2700])) (fun t => t.mod == 0 && rsp t == (true, 1, 0)) = true := by decide
/-- V-CMD-12 and `S_1` of V-TX-4. -/
theorem test_comm :
    nextHas (step (idle6 [.hold 0x3FFF]))
      (fun t => t.ph == .send && t.bi == 0 && t.si == 0 && t.tmr == 416 && t.pinOe && !t.pinO && rsp t == (false, 0, 0))
      = true := by decide
/-- V-CMD-13. -/
theorem test_reserved0 : nextHas (step (idle6 [.hold 0x0000])) (fun t => rsp t == (true, 2, 0)) = true := by decide
/-- V-CMD-15. -/
theorem test_reserved47 : nextHas (step (idle6 [.hold 0x7ABC])) (fun t => rsp t == (true, 2, 0)) = true := by decide
/-- V-CMD-16. -/
theorem test_reserved8F : nextHas (step (idle6 [.hold 0xFFFF])) (fun t => rsp t == (true, 2, 0)) = true := by decide
/-- V-CMD-17: not presented, no response. -/
theorem test_not_presented :
    nextHas (step (idle6 [.drive false false 0x1455])) (fun t => rsp t == (false, 0, 0)) = true := by decide
/-- V-CMD-18: held while busy. -/
theorem test_held_while_busy :
    nextHas (step { sending 0 0 5 LOW with env := { host := [.hold 0x1077], pins := [], edge := 0 } })
      (fun t => t.env.host == [.hold 0x1077] && t.data == #v[0x10, 0x20, 0x30, 0x40] && t.tmr == 4) = true := by decide
/-- V-RST-2. -/
theorem test_reset_over_command :
    nextHas (step (idle6 [.drive true true 0x1077]))
      (fun t => t.toRegs == resetRegs params && t.data == #v[0, 0, 0, 0]) = true := by decide

/-! ### Single steps of a bus cycle (V-TX-4, V-RX) -/

/-- `S_417` to `S_418`: the header's first data slot. -/
theorem test_sendByte :
    nextHas (step (sending 0 0 0 LOW)) (fun t => t.si == 1 && t.tmr == 416 && t.pinO && t.pinOe) = true := by decide
/-- Slot 6 of byte 5 (0xA0) is HIGH after slot 5: `00000010111`. -/
theorem test_sendByte_checksum :
    nextHas (step (sending 5 5 0 LOW)) (fun t => t.si == 6 && t.pinO) = true := by decide
/-- `S_4587` to `S_4588`: the start slot of byte 1. -/
theorem test_sendFrame :
    nextHas (step (sending 0 10 0 HIGH)) (fun t => t.bi == 1 && t.si == 0 && t.tmr == 416 && t.pinOe && !t.pinO) = true := by
  decide
/-- 16 HIGH polls give 400, which is 0; the eighth bit ends the bus cycle (R124, R185). -/
theorem test_recvByte_last_bit :
    nextHas (step (measuring 7 16 400 0 0x25 LOW)) (fun t => t.ph == .idle && rsp t == (true, 0, 0x25)) = true := by decide
/-- The bound: the bit ends though the line is HIGH (V-RX-2). -/
theorem test_recvByte_bound :
    nextHas (step (measuring 7 100 2500 0 0x7F HIGH)) (fun t => rsp t == (true, 0, 0xFF)) = true := by decide

/-! ### Each row of the opcode table runs as the first instruction after reset -/

theorem test_first_command_rows :
    fetch (State.reset.withFetchWord 16 0x1000) = some (.setData 0 0) ∧
    fetch (State.reset.withFetchWord 16 0x2000) = some (.setMod 0 0) ∧
    fetch (State.reset.withFetchWord 16 0x3000) = some (.comm 0 0) ∧
    fetch (State.reset.withFetchWord 16 0x0000) = some (.reserved0 0) ∧
    fetch (State.reset.withFetchWord 16 0x4000) = some (.reserved47 0 0) ∧
    fetch (State.reset.withFetchWord 16 0x8000) = some (.reserved8F 0 0) := by decide
theorem test_first_wire_rows :
    fetch (State.reset.withFetchWord 11 0b01010010111) = some (.sendByte 0xA5) ∧
    fetch (State.reset.withFetchWord 72 0b011111111110000010001100000010011000001100110000000101100000010111) =
      some (.sendFrame 0x10 0x20 0x30 0x40 0xA0) ∧
    fetch (State.reset.withFetchWord 8 0) = some .recvByte := by decide

/-! ### Witnesses: a concrete state and operands for the hypotheses of each statement -/

/-- The nominal parameters meet the constraints of R3. -/
theorem witness_params_legal : params.Legal := by decide
theorem witness_params_polls : 0 < params.accStep ∧ leastPolls params = 17 ∧ leastPolls params ≤ params.nTicks ∧
    params.nTicks * params.accStep > params.thresh := by decide

theorem witness_ResetStateValues :
    (inputNow (idle6 [.drive true false 0])).rst = true ∧
      step (idle6 [.drive true false 0]) = .next (resetEdge (idle6 [.drive true false 0])) := ⟨by decide, rfl⟩
theorem witness_ResetOverridesEverything :
    (inputNow { sending 3 4 7 HIGH with env := { host := [.drive true true 0x1077], pins := [], edge := 0 } }).rst = true := by
  decide
theorem witness_StepRunsDecodedCommand_presented :
    (inputNow (idle6 [.hold 0x3000])).rst = false ∧ (idle6 [.hold 0x3000]).ph = .idle ∧
      (inputNow (idle6 [.hold 0x3000])).cmdValid = true := by decide
theorem witness_StepRunsDecodedCommand_quiet :
    (inputNow (idle6 [])).rst = false ∧ (idle6 []).ph = .idle ∧ (inputNow (idle6 [])).cmdValid = false := by decide
theorem witness_StepRunsInternalOperation_byte :
    (inputNow (sending 5 9 0 HIGH)).rst = false ∧ (sending 5 9 0 HIGH).ph = .send ∧
      (sending 5 9 0 HIGH).si.toNat < 10 := by decide
theorem witness_StepRunsInternalOperation_frame :
    (inputNow (sending 4 10 0 HIGH)).rst = false ∧ (sending 4 10 0 HIGH).ph = .send ∧ (sending 4 10 0 HIGH).tmr = 0 ∧
      10 ≤ (sending 4 10 0 HIGH).si.toNat ∧ (sending 4 10 0 HIGH).bi.toNat < 5 := by decide
theorem witness_StepRunsInternalOperation_end :
    (sending 5 10 0 HIGH).tmr = 0 ∧ 10 ≤ (sending 5 10 0 HIGH).si.toNat ∧ 5 ≤ (sending 5 10 0 HIGH).bi.toNat := by decide
theorem witness_StepRunsInternalOperation_measure :
    (inputNow (measuring 7 0 0 0 0 LOW)).rst = false ∧ (measuring 7 0 0 0 0 LOW).ph = .meas := by decide
theorem witness_SetData_legal : (idle6 []).ph = .idle ∧ (3 : BitVec 4).toNat ≤ 3 := by decide
theorem witness_SetData_illegal : (idle6 []).ph = .idle ∧ 4 ≤ (4 : BitVec 4).toNat := by decide
theorem witness_Command_busy : (sending 0 0 0 LOW).ph ≠ .idle ∧ (measuring 0 0 0 0 0 LOW).ph ≠ .idle := by decide
theorem witness_SetMod_legal : (idle6 []).ph = .idle ∧ (3 : BitVec 4).toNat ≤ 3 := by decide
theorem witness_SetMod_other : (∀ idx' val', Instr.recvByte ≠ .setMod idx' val') ∧
    nextHas (exec .recvByte (idle6 [])) (fun _ => true) = true := ⟨fun _ _ => by simp, by decide⟩
theorem witness_SetMod_illegal : (idle6 []).ph = .idle ∧ 4 ≤ (15 : BitVec 4).toNat := by decide
theorem witness_CommStartsTheRequest : (idle6 []).ph = .idle := by decide
theorem witness_Reserved_low : cmdOp 0x0000 = 0x0 ∧ (idle6 []).ph = .idle := by decide
theorem witness_Reserved_high : 4 ≤ (cmdOp 0x4000).toNat ∧ 4 ≤ (cmdOp 0xFFFF).toNat := by decide
theorem witness_ReservedConstructors :
    (idle6 []).ph = .idle ∧ ∃ op low, decodeCmd 0x7ABC = .reserved47 op low := ⟨rfl, 3, 0xABC, by decide⟩
theorem witness_CommandFrame :
    exec (decodeCmd 0x1230) (idle6 []) = .next ((idle6 []).onRegs (accept (writeData 2 0x30))) := rfl
theorem witness_RefusalLeavesNoTrace_config :
    (inputNow (idle6 [.hold 0x2400])).rst = false ∧ (idle6 [.hold 0x2400]).ph = .idle ∧
      (inputNow (idle6 [.hold 0x2400])).cmdValid = true ∧
      cmdOp (inputNow (idle6 [.hold 0x2400])).cmd = 0x2 ∧ 4 ≤ (cmdIdx (inputNow (idle6 [.hold 0x2400])).cmd).toNat ∧
      nextHas (step (idle6 [.hold 0x2400])) (fun _ => true) = true := by decide
theorem witness_RefusalLeavesNoTrace_illegal :
    (inputNow (idle6 [.hold 0x4000])).cmdValid = true ∧ 4 ≤ (cmdOp (inputNow (idle6 [.hold 0x4000])).cmd).toNat ∧
      cmdOp (inputNow (idle6 [.hold 0x0FFF])).cmd = 0x0 := by decide
theorem witness_SendByteDrivesElevenSlots :
    byteInProgress (idle6 []).toRegs = false ∧ byteInProgress (sending 0 10 0 HIGH).toRegs = false ∧ 10 < 11 ∧
      416 < params.tBit := by decide
theorem witness_SendFrameDrivesSixtySixSlots : (idle6 []).ph ≠ .send ∧ 65 < 66 ∧ 416 < params.tBit := by decide
theorem witness_RecvByteReleasesAndSettles :
    ((sending 5 10 0 HIGH).ph = .idle ∨ (sending 5 10 0 HIGH).ph = .send) ∧ 1499 < params.tSettle := by decide
theorem witness_RecvByteMeasurementEdge_wait : (measuring 0 1 25 24 0 LOW).ph = .meas ∧ 0 < (measuring 0 1 25 24 0 LOW).tmr := by
  decide
theorem witness_RecvByteMeasurementEdge_poll :
    (measuring 0 99 2475 0 0 HIGH).ph = .meas ∧ (measuring 0 99 2475 0 0 HIGH).tmr = 0 ∧
      (measuring 0 99 2475 0 0 HIGH).pcnt < params.nTicks ∧ (inputNow (measuring 0 99 2475 0 0 HIGH)).pinI = HIGH := by decide
theorem witness_RecvByteMeasurementEdge_bit :
    (measuring 6 100 2500 0 0 HIGH).tmr = 0 ∧ params.nTicks ≤ (measuring 6 100 2500 0 0 HIGH).pcnt ∧
      (measuring 6 100 2500 0 0 HIGH).si.toNat < 7 := by decide
theorem witness_RecvByteMeasurementEdge_last :
    (inputNow (measuring 7 0 0 0 0 LOW)).pinI = LOW ∧ (measuring 7 0 0 0 0 LOW).si.toNat = 7 := by decide
theorem witness_RecvByteOfConstantLine_low :
    (sending 5 10 0 HIGH).ph = .send ∧
      (inputNow { sending 5 10 0 HIGH with env := { host := [], pins := [LOW], edge := 0 } }).pinI = LOW := by decide
theorem witness_RecvByteOfConstantLine_high :
    (inputNow { sending 5 10 0 HIGH with env := { host := [], pins := [HIGH], edge := 0 } }).pinI = HIGH := by decide
theorem witness_InternalOperationFrame :
    nextHas (exec (.sendByte 0xA5) (idle6 [])) (fun _ => true) = true ∧
      nextHas (exec (.sendFrame 1 2 3 4 0xA0) (sending 0 10 0 HIGH)) (fun _ => true) = true ∧
      nextHas (exec .recvByte (measuring 0 0 0 0 0 LOW)) (fun _ => true) = true := by decide

/-- A COMM at edge 0, then a quiet host and a silent line. -/
def commStream (n : Nat) : Input := { rst := false, cmdValid := n == 0, cmd := 0x3000, pinI := LOW }

theorem witness_BusCycle :
    params.Legal ∧ (idle6 []).toRegs.ph = .idle ∧ PresentsComm (commStream 0) ∧ (∀ n, (commStream n).rst = false) ∧
      (∀ c, LOW = (commStream (firstPoll params + c)).pinI) ∧ 416 < params.tBit ∧ 1499 < params.tSettle :=
  ⟨by decide, rfl, ⟨rfl, rfl, rfl⟩, fun _ => rfl, fun _ => rfl, by decide, by decide⟩
theorem witness_Inv_reset : Inv params State.reset.toRegs where
  seq := ⟨rfl, rfl, rfl, rfl, rfl, rfl, rfl, rfl, rfl⟩
  pin := ⟨by decide, by decide, by decide⟩
  rsp := ⟨by decide, by decide, by decide, by decide⟩
theorem witness_IdleIsAlwaysReached :
    params.Legal ∧ Inv params State.reset.toRegs ∧ ∀ n, (commStream n).rst = false :=
  ⟨by decide, witness_Inv_reset, fun _ => rfl⟩
theorem witness_ProgramRunEnds :
    CanonicalIdle (idle6 (program [0x1230, 0x3000])).toRegs ∧
      (idle6 (program [0x1230, 0x3000])).env.host = program [0x1230, 0x3000] :=
  ⟨⟨rfl, rfl, rfl, rfl, rfl, rfl, rfl, rfl, rfl⟩, rfl⟩
/-- A busy state that meets the invariant: the first state of a request. -/
theorem witness_StepKeepsInvariant :
    Inv params (sending 0 0 416 LOW).toRegs ∧ nextHas (step (sending 0 0 416 LOW)) (fun _ => true) = true :=
  ⟨{ seq := ⟨by decide, by decide, by decide, rfl, rfl, rfl⟩
     pin := ⟨by decide, by decide, by decide⟩
     rsp := ⟨by decide, by decide, by decide, by decide⟩ }, by decide⟩
theorem witness_SpecStepKeepsInvariant : params.Legal ∧ Inv params (sending 0 0 416 LOW).toRegs :=
  ⟨by decide, witness_StepKeepsInvariant.1⟩
theorem witness_PhaseGraph :
    nextHas (step (idle6 [.hold 0x3000])) (fun t => t.ph == .send) = true ∧
      nextHas (step (sending 5 10 0 HIGH)) (fun t => t.ph == .settle) = true ∧
      nextHas (step (measuring 7 0 0 0 0 LOW)) (fun t => t.ph == .idle) = true := by decide
theorem witness_OnlySetCommands :
    (inputNow (idle6 [.hold 0x13FF])).rst = false ∧
      nextHas (step (idle6 [.hold 0x13FF])) (fun t => t.data != (idle6 []).data) = true ∧
      nextHas (step (idle6 [.hold 0x2300])) (fun t => t.mod != (idle6 []).mod) = true := by decide
theorem witness_ResponseExactlyWhenDue :
    nextHas (step (measuring 7 0 0 0 1 LOW)) (fun t => t.rspValid && t.rspData == 1) = true ∧
      nextHas (step (idle6 [])) (fun t => !t.rspValid) = true := by decide
theorem witness_PinReadOnlyAtPolls :
    (sending 0 0 0 LOW).ph ≠ .meas ∧ 0 < (measuring 0 1 25 24 0 LOW).tmr ∧
      params.nTicks ≤ (measuring 0 100 2500 0 0 LOW).pcnt := by decide
/-- In SEND and with this to come from the host. -/
def busyWith (host : List HostAct) : State :=
  { sending 0 0 5 LOW with env := { host := host, pins := [], edge := 0 } }
theorem witness_WordPresentedWhileBusy_held :
    (busyWith [.hold 0x1077]).ph ≠ .idle ∧ (inputNow (busyWith [.hold 0x1077])).rst = (inputNow (busyWith [])).rst := by decide
theorem witness_WordPresentedWhileBusy_driven :
    (busyWith [.drive false true 0x3000]).ph ≠ .idle ∧ (inputNow (busyWith [.drive false true 0x3000])).cmdValid = true ∧
      (inputNow (busyWith [.drive false true 0x3000])).rst = (inputNow (busyWith [.drive false false 0])).rst := by decide
theorem witness_WaitingChangesOnlyTheTimer :
    (inputNow (sending 0 0 5 LOW)).rst = false ∧ (sending 0 0 5 LOW).ph ≠ .idle ∧ 0 < (sending 0 0 5 LOW).tmr := by decide
theorem witness_ChecksumWidths : (8 = 8 ∨ 8 = 16) ∧ (16 = 8 ∨ 16 = 16) := by decide
theorem witness_ModuleIndexChanges : (0 : ModIndex) ≠ 1 := by decide
theorem witness_LeastPolls_none : ({ params with accStep := 0 } : Params).accStep = 0 ∧
    ({ params with nTicks := 16 } : Params).nTicks < leastPolls { params with nTicks := 16 } := by decide
/-- LOW at the eight polls of a silent line, HIGH between two of them would not be seen: the line is HIGH from offset 8. -/
theorem witness_ConstantLineDecodes_low (k : Nat) (hk : k < 8) :
    (fun c : Nat => decide (8 ≤ c)) (measStart params (fun c => decide (8 ≤ c)) k) = LOW := by
  interval_cases k <;> decide
theorem witness_ConstantLineDecodes_high :
    (∀ k, k < 8 → ∀ j, j < params.nTicks → (fun _ : Nat => HIGH) (measStart params (fun _ => HIGH) k + j * params.tTick) = HIGH) ∧
      params.nTicks * params.accStep > params.thresh := ⟨fun _ _ _ _ => rfl, by decide⟩
/-- The premise of PulseCodedReplyDecodes about measurement `k`, at the nominal parameters. -/
abbrev PulsePremise (x : Byte) (L : Nat → Level) (k : Nat) : Prop :=
  if x.getLsbD k then ∀ j, j < leastPolls params → L (measStart params L k + j * params.tTick) = HIGH
  else L (measStart params L k) = LOW
/-- A silent line presents the byte 0. -/
theorem witness_PulseCodedReply_zero (k : Nat) (_ : k < 8) : PulsePremise 0 (fun _ => LOW) k := by simp [PulsePremise]
/-- V-RX-8: `H 417, L 10, H 417, L 11, H 417, L 10, H 417, L 9, L...` presents 0xA5, bits that are 1 and bits that are 0. -/
def lineA5 (c : Nat) : Level :=
  decide (c < 417) || (decide (427 ≤ c) && decide (c < 844)) || (decide (855 ≤ c) && decide (c < 1272)) ||
    (decide (1282 ≤ c) && decide (c < 1699))
theorem witness_PulseCodedReply_A5 (k : Nat) (hk : k < 8) : PulsePremise 0xA5 lineA5 k := by
  interval_cases k <;> decide
theorem witness_DecodeEncode : WellFormed (.sendFrame 0x10 0x20 0x30 0x40 0xA0) = true := by decide
theorem witness_EncodeDecodeSlots :
    decode (.slots (requestSlots 0x00 0x00 0x00 0xFF 0xE3)) = .ok (.sendFrame 0x00 0x00 0x00 0xFF 0xE3) := by decide

end Sys2Proof.Tests
end

/-! PROOFS. One edge with the timer running (R4); the arms of the spec's `Step` as the model's named operations; each
operation keeps the invariant of reachable states, and so does `Step`. -/

namespace Sys2Proof.Machine

/-! ### While the timer runs an operation only counts down (R4) -/

theorem slotEdge_of_waiting (p : Params) (v : Byte) (r : Regs) (h : 0 < r.tmr) : slotEdge p v r = countDown r :=
  if_pos h

theorem settleEdge_of_waiting (r : Regs) (h : 0 < r.tmr) : settleEdge r = countDown r :=
  if_pos h

theorem measureEdge_of_waiting (p : Params) (pin : Level) (r : Regs) (h : 0 < r.tmr) :
    measureEdge p pin r = countDown r :=
  if_pos h

theorem byteInProgress_of_waiting (r : Regs) (hph : r.ph = .send) (h : 0 < r.tmr) : byteInProgress r = true :=
  (byteInProgress_iff r).2 ⟨hph, .inl h⟩

/-- Whatever `fetch` names in a busy phase, its edge only counts down while the timer runs. -/
theorem effect_fetch_of_waiting (s : State) (hbusy : s.ph ≠ .idle) (ht : 0 < s.tmr) :
    ∃ i, fetch s = some i ∧ effect i (inputNow s).pinI s.toRegs = countDown (clearRsp s.toRegs) := by
  have ht' : 0 < (clearRsp s.toRegs).tmr := ht
  cases hph : s.ph with
  | idle => exact absurd hph hbusy
  | send =>
    have hin : byteInProgress s.toRegs = true := byteInProgress_of_waiting _ hph ht
    have hin' : byteInProgress (clearRsp s.toRegs) = true := byteInProgress_of_waiting _ hph ht'
    refine ⟨.sendByte (txByte params s.toRegs s.bi), by simp [fetch, fetchSend, hph, hin], ?_⟩
    simp [effect, sendByteEdge, hin', slotEdge_of_waiting _ _ _ ht']
  | settle =>
    refine ⟨.recvByte, by simp [fetch, hph], ?_⟩
    exact (recvByteEdge_settle _ _ (clearRsp s.toRegs) hph).trans (settleEdge_of_waiting _ ht')
  | meas =>
    refine ⟨.recvByte, by simp [fetch, hph], ?_⟩
    exact (recvByteEdge_meas _ _ (clearRsp s.toRegs) hph).trans (measureEdge_of_waiting _ _ _ ht')

/-! ### The arms of the spec's `Step` are the model's operations (R182 to R185) -/

/-- Everything R182 can do, and when. -/
theorem specIdle_cases (p : Params) (i : Input) (r : Regs) :
    (i.cmdValid = false ∧ specIdle p i r = r) ∨
    (i.cmdValid = true ∧ cmdOp i.cmd = 0x1#4 ∧ specIdle p i r = writeData (cmdIdx i.cmd) (cmdVal i.cmd) r) ∨
    (i.cmdValid = true ∧ cmdOp i.cmd = 0x2#4 ∧ specIdle p i r = writeMod (cmdIdx i.cmd) r) ∨
    (i.cmdValid = true ∧ cmdOp i.cmd = 0x3#4 ∧ specIdle p i r = startFrame p r) ∨
    (i.cmdValid = true ∧ cmdOp i.cmd ≠ 0x1#4 ∧ cmdOp i.cmd ≠ 0x2#4 ∧ cmdOp i.cmd ≠ 0x3#4 ∧
      specIdle p i r = raise .errIllegal r) := by
  unfold specIdle
  cases hv : i.cmdValid
  · exact .inl ⟨rfl, rfl⟩
  · rw [if_neg (by decide)]
    by_cases h1 : cmdOp i.cmd = 0x1#4
    · exact .inr (.inl ⟨rfl, h1, if_pos h1⟩)
    rw [if_neg h1]
    by_cases h2 : cmdOp i.cmd = 0x2#4
    · exact .inr (.inr (.inl ⟨rfl, h2, if_pos h2⟩))
    rw [if_neg h2]
    by_cases h3 : cmdOp i.cmd = 0x3#4
    · exact .inr (.inr (.inr (.inl ⟨rfl, h3, if_pos h3⟩)))
    · exact .inr (.inr (.inr (.inr ⟨rfl, h1, h2, h3, if_neg h3⟩)))

/-- Everything R183 can do, and when. -/
theorem specSend_cases (p : Params) (r : Regs) :
    (0 < r.tmr ∧ specSend p r = countDown r) ∨
    (r.tmr = 0 ∧ r.si.toNat < 10 ∧ specSend p r =
      { r with si := r.si + 1, pinO := slotLevel (txByte p r r.bi) (r.si.toNat + 1), tmr := p.tBit - 1 }) ∨
    (r.tmr = 0 ∧ 10 ≤ r.si.toNat ∧ r.bi.toNat < 5 ∧ specSend p r = nextByte p r) ∨
    (r.tmr = 0 ∧ 10 ≤ r.si.toNat ∧ 5 ≤ r.bi.toNat ∧ specSend p r = startReceive p r) := by
  unfold specSend
  by_cases ht : r.tmr > 0
  · exact .inl ⟨ht, if_pos ht⟩
  rw [if_neg ht]
  by_cases hs : r.si.toNat < 10
  · exact .inr (.inl ⟨by omega, hs, if_pos hs⟩)
  rw [if_neg hs]
  by_cases hb : r.bi.toNat < 5
  · exact .inr (.inr (.inl ⟨by omega, by omega, hb, if_pos hb⟩))
  · exact .inr (.inr (.inr ⟨by omega, by omega, by omega, if_neg hb⟩))

theorem specSettle_eq_settleEdge (r : Regs) : specSettle r = settleEdge r := rfl

theorem specMeas_eq_measureEdge (p : Params) (i : Input) (r : Regs) : specMeas p i r = measureEdge p i.pinI r := rfl

/-- Everything the spec's `Step` can do: reset, or the arm of the phase from the registers cleared by R181. -/
theorem specStep_cases (p : Params) (i : Input) (r : Regs) :
    (i.rst = true ∧ specStep p i r = resetRegs p) ∨
    (i.rst = false ∧ r.ph = .idle ∧ specStep p i r = specIdle p i (clearRsp r)) ∨
    (i.rst = false ∧ r.ph = .send ∧ specStep p i r = specSend p (clearRsp r)) ∨
    (i.rst = false ∧ r.ph = .settle ∧ specStep p i r = settleEdge (clearRsp r)) ∨
    (i.rst = false ∧ r.ph = .meas ∧ specStep p i r = measureEdge p i.pinI (clearRsp r)) := by
  cases hrst : i.rst with
  | true => exact .inl ⟨rfl, if_pos hrst⟩
  | false =>
    cases hph : r.ph with
    | idle => exact .inr (.inl ⟨rfl, rfl, by simp [specStep, hrst, hph, clearRsp]⟩)
    | send => exact .inr (.inr (.inl ⟨rfl, rfl, by simp [specStep, hrst, hph, clearRsp]⟩))
    | settle =>
      exact .inr (.inr (.inr (.inl ⟨rfl, rfl, by simp [specStep, hrst, hph, clearRsp, specSettle_eq_settleEdge]⟩)))
    | meas =>
      exact .inr (.inr (.inr (.inr ⟨rfl, rfl, by simp [specStep, hrst, hph, clearRsp, specMeas_eq_measureEdge]⟩)))

/-! ### The bits decoded so far (R125) -/

/-- Setting bit `i` of a byte below `2 ^ i` gives one below `2 ^ (i + 1)`. -/
theorem setBit_toNat_lt (v : Byte) (i : Nat) (b : Bool) (hi : i < 8) (hv : v.toNat < 2 ^ i) :
    (setBit v i b).toNat < 2 ^ (i + 1) := by
  refine Nat.lt_pow_two_of_testBit _ fun k hk => ?_
  have hv_k : v.getLsbD k = false :=
    Nat.testBit_lt_two_pow (hv.trans_le (Nat.pow_le_pow_right (by decide) (by omega)))
  rw [BitVec.testBit_toNat, setBit_getLsbD v i k b hi, if_neg (by omega), hv_k]

end Sys2Proof.Machine

namespace Sys2Proof.Safety

open Sys2Proof.Machine

/-! ### The parts of the invariant, phase by phase -/

/-- With no response shown the response registers are in range in every phase (R17). -/
theorem rspInRange_of_silent {r : Regs} (hv : r.rspValid = false) (hs : r.rspStatus = 0) (hd : r.rspData = 0) :
    RspInRange r := by
  simp [RspInRange, hv, hs, hd]

/-- A response other than a measured byte carries 0x00 (R210); the status is one of R71's three. -/
theorem rspInRange_respond {r : Regs} (hph : r.ph = .idle) (st : Status) (d : Byte) (hd : st = .ok ∨ d = 0) :
    RspInRange (respond st d r) := by
  cases st <;> simp_all [RspInRange, Status.code]

/-- Changing the rest of the registers keeps a silent response channel in range. -/
theorem RspInRange.of_same_silent {r r' : Regs} (h : RspInRange r) (hv : r.rspValid = false)
    (hv' : r'.rspValid = r.rspValid) (hs' : r'.rspStatus = r.rspStatus) (hd' : r'.rspData = r.rspData) :
    RspInRange r' := by
  obtain ⟨-, -, -, hzero⟩ := h
  exact rspInRange_of_silent (hv'.trans hv) (hs'.trans (hzero hv).1) (hd'.trans (hzero hv).2)

/-- Outside SEND the pin is released (R16). -/
theorem pinMatchesPhase_of_released {p : Params} {r : Regs} (hph : r.ph ≠ .send) (hoe : r.pinOe = false)
    (ho : r.pinO = LOW) : PinMatchesPhase p r := by
  simp [PinMatchesPhase, hph, hoe, ho]

/-- In SEND the pin is driven with the level of the slot (R183). -/
theorem pinMatchesPhase_of_driven {p : Params} {r : Regs} (hph : r.ph = .send) (hoe : r.pinOe = true)
    (ho : r.pinO = slotLevel (txByte p r r.bi) r.si.toNat) : PinMatchesPhase p r :=
  ⟨by simp [hph, hoe], by simp [hoe], fun _ => ho⟩

theorem PinMatchesPhase.released {p : Params} {r : Regs} (h : PinMatchesPhase p r) (hph : r.ph ≠ .send) :
    r.pinOe = false ∧ r.pinO = LOW := by
  obtain ⟨hoe, ho, -⟩ := h
  have hfalse : r.pinOe = false := by simpa [hph] using hoe
  exact ⟨hfalse, ho hfalse⟩

theorem seqInRange_idle_iff {p : Params} {r : Regs} (hph : r.ph = .idle) : SeqInRange p r ↔ CanonicalIdle r := by
  simp only [SeqInRange, hph]

theorem seqInRange_send_iff {p : Params} {r : Regs} (hph : r.ph = .send) :
    SeqInRange p r ↔
      r.bi.toNat ≤ 5 ∧ r.si.toNat ≤ 10 ∧ r.tmr < p.tBit ∧ r.pcnt = 0 ∧ r.acc = 0 ∧ r.rxsh = 0 := by
  simp only [SeqInRange, hph]

theorem seqInRange_settle_iff {p : Params} {r : Regs} (hph : r.ph = .settle) :
    SeqInRange p r ↔ r.bi = 0 ∧ r.si = 0 ∧ r.tmr < p.tSettle ∧ r.pcnt = 0 ∧ r.acc = 0 ∧ r.rxsh = 0 := by
  simp only [SeqInRange, hph]

theorem seqInRange_meas_iff {p : Params} {r : Regs} (hph : r.ph = .meas) :
    SeqInRange p r ↔
      r.bi = 0 ∧ r.si.toNat ≤ 7 ∧ r.tmr < p.tTick ∧ r.pcnt ≤ p.nTicks ∧
        (r.pcnt = 0 → r.tmr = 0) ∧ r.acc = r.pcnt * p.accStep ∧ r.rxsh.toNat < 2 ^ r.si.toNat := by
  simp only [SeqInRange, hph]

/-- In IDLE the invariant is the canonical form (R19) and the response registers in range. -/
theorem inv_idle_iff {p : Params} {r : Regs} (hph : r.ph = .idle) : Inv p r ↔ CanonicalIdle r ∧ RspInRange r :=
  ⟨fun h => ⟨(seqInRange_idle_iff hph).1 h.seq, h.rsp⟩, fun ⟨hc, hr⟩ =>
    { seq := Iff.mpr (seqInRange_idle_iff hph) hc
      pin := pinMatchesPhase_of_released (by simp [hph]) hc.pinOe hc.pinO
      rsp := hr }⟩

/-- The canonical idle form says nothing of the registers the host writes or reads (R19). -/
theorem CanonicalIdle.with_hostRegs {r : Regs} (h : CanonicalIdle r) (d : Vector Byte 4) (m : ModIndex) (v : Bool)
    (st : BitVec 2) (rd : Byte) :
    CanonicalIdle { r with data := d, mod := m, rspValid := v, rspStatus := st, rspData := rd } :=
  ⟨h.ph, h.bi, h.si, h.pcnt, h.acc, h.tmr, h.rxsh, h.pinOe, h.pinO⟩

/-- A busy framer shows no response (R154). -/
theorem Inv.silent_of_busy {p : Params} {r : Regs} (h : Inv p r) (hbusy : r.ph ≠ .idle) : r.rspValid = false := by
  obtain ⟨hidle, -⟩ := h.rsp
  simpa [hbusy] using hidle

/-- In a busy phase an operation that gives no response leaves the response registers in range. -/
theorem Inv.rspInRange_of_busy {p : Params} {r r' : Regs} (h : Inv p r) (hbusy : r.ph ≠ .idle)
    (hv : r'.rspValid = r.rspValid) (hs : r'.rspStatus = r.rspStatus) (hd : r'.rspData = r.rspData) : RspInRange r' :=
  h.rsp.of_same_silent (h.silent_of_busy hbusy) hv hs hd

/-! ### Reset, the clearing of R181, and waiting -/

theorem inv_resetRegs (p : Params) : Inv p (resetRegs p) :=
  Iff.mpr (inv_idle_iff rfl) ⟨⟨rfl, rfl, rfl, rfl, rfl, rfl, rfl, rfl, rfl⟩, rspInRange_of_silent rfl rfl rfl⟩

theorem inv_clearRsp {p : Params} {r : Regs} (h : Inv p r) : Inv p (clearRsp r) where
  seq := by
    cases hph : r.ph with
    | idle => exact Iff.mpr (seqInRange_idle_iff hph) (((seqInRange_idle_iff hph).1 h.seq).with_hostRegs _ _ _ _ _)
    | send => exact Iff.mpr (seqInRange_send_iff hph) ((seqInRange_send_iff hph).1 h.seq)
    | settle => exact Iff.mpr (seqInRange_settle_iff hph) ((seqInRange_settle_iff hph).1 h.seq)
    | meas => exact Iff.mpr (seqInRange_meas_iff hph) ((seqInRange_meas_iff hph).1 h.seq)
  pin := h.pin
  rsp := rspInRange_of_silent rfl rfl rfl

/-- A cycle of waiting (R4): no bound on the timer is lost, and in MEAS a running timer means `pcnt` is not 0. -/
theorem inv_countDown {p : Params} {r : Regs} (h : Inv p r) (ht : 0 < r.tmr) : Inv p (countDown r) where
  seq := by
    cases hph : r.ph with
    | idle => exact absurd ((seqInRange_idle_iff hph).1 h.seq).tmr (by omega)
    | send =>
      obtain ⟨hbi, hsi, htmr, hrest⟩ := (seqInRange_send_iff hph).1 h.seq
      exact Iff.mpr (seqInRange_send_iff hph) ⟨hbi, hsi, (Nat.sub_le _ _).trans_lt htmr, hrest⟩
    | settle =>
      obtain ⟨hbi, hsi, htmr, hrest⟩ := (seqInRange_settle_iff hph).1 h.seq
      exact Iff.mpr (seqInRange_settle_iff hph) ⟨hbi, hsi, (Nat.sub_le _ _).trans_lt htmr, hrest⟩
    | meas =>
      obtain ⟨hbi, hsi, htmr, hpcnt, hfirst, hrest⟩ := (seqInRange_meas_iff hph).1 h.seq
      exact Iff.mpr (seqInRange_meas_iff hph)
        ⟨hbi, hsi, (Nat.sub_le _ _).trans_lt htmr, hpcnt, fun h0 => absurd (hfirst h0) ht.ne', hrest⟩
  pin := h.pin
  rsp := h.rsp

/-! ### Commands in IDLE (R182) -/

/-- A response in IDLE, whatever the command wrote to `data` and `mod`. -/
theorem inv_respond {p : Params} {r : Regs} (h : Inv p r) (hph : r.ph = .idle) (d : Vector Byte 4) (m : ModIndex)
    (st : Status) : Inv p (respond st 0 { r with data := d, mod := m }) :=
  Iff.mpr (inv_idle_iff hph)
    ⟨((inv_idle_iff hph).1 h).1.with_hostRegs d m true st.code 0, rspInRange_respond hph st 0 (.inr rfl)⟩

theorem inv_writeData {p : Params} {r : Regs} (h : Inv p r) (hph : r.ph = .idle) (idx : BitVec 4) (val : Byte) :
    Inv p (writeData idx val r) := by
  by_cases hidx : idx.toNat ≤ 3
  · exact writeData_legal idx val r hidx ▸ inv_respond h hph _ r.mod .ok
  · exact writeData_illegal idx val r hidx ▸ inv_respond h hph r.data r.mod .errConfig

theorem inv_writeMod {p : Params} {r : Regs} (h : Inv p r) (hph : r.ph = .idle) (idx : BitVec 4) :
    Inv p (writeMod idx r) := by
  by_cases hidx : idx.toNat ≤ 3
  · exact writeMod_legal idx r hidx ▸ inv_respond h hph r.data _ .ok
  · exact writeMod_illegal idx r hidx ▸ inv_respond h hph r.data r.mod .errConfig

/-- COMM: the start slot of the header, from an idle framer whose response is cleared. -/
theorem inv_startFrame {p : Params} {r : Regs} (hp : p.Legal) (h : Inv p r) (hph : r.ph = .idle)
    (hv : r.rspValid = false) : Inv p (startFrame p r) where
  seq := by
    obtain ⟨htBit, -⟩ := hp
    have hc : CanonicalIdle r := ((inv_idle_iff hph).1 h).1
    exact Iff.mpr (seqInRange_send_iff rfl)
      ⟨Nat.zero_le _, Nat.zero_le _, Nat.sub_one_lt (by omega), hc.pcnt, hc.acc, hc.rxsh⟩
  pin := pinMatchesPhase_of_driven rfl rfl rfl
  rsp := h.rsp.of_same_silent hv rfl rfl rfl

theorem inv_specIdle {p : Params} {r : Regs} (hp : p.Legal) (h : Inv p r) (hph : r.ph = .idle)
    (hv : r.rspValid = false) (i : Input) : Inv p (specIdle p i r) := by
  obtain ⟨-, e⟩ | ⟨-, -, e⟩ | ⟨-, -, e⟩ | ⟨-, -, e⟩ | ⟨-, -, -, -, e⟩ := specIdle_cases p i r <;> rw [e]
  · exact h
  · exact inv_writeData h hph _ _
  · exact inv_writeMod h hph _
  · exact inv_startFrame hp h hph hv
  · exact inv_respond h hph r.data r.mod .errIllegal

/-! ### SEND (R183) -/

/-- The next slot of the byte on the wire. -/
theorem inv_nextSlot {p : Params} {r : Regs} (hp : p.Legal) (h : Inv p r) (hph : r.ph = .send)
    (hs : r.si.toNat < 10) :
    Inv p { r with si := r.si + 1, pinO := slotLevel (txByte p r r.bi) (r.si.toNat + 1), tmr := p.tBit - 1 } := by
  have hsucc : (r.si + 1).toNat = r.si.toNat + 1 := by bv_omega
  obtain ⟨htBit, -⟩ := hp
  obtain ⟨hbi, -, -, hrest⟩ := (seqInRange_send_iff hph).1 h.seq
  exact
    { seq := Iff.mpr (seqInRange_send_iff hph) ⟨hbi, hsucc.trans_le hs, Nat.sub_one_lt (by omega), hrest⟩
      pin := pinMatchesPhase_of_driven hph (h.pin.1.2 hph) (by rw [hsucc]; rfl)
      rsp := h.rsp }

/-- The start slot of the next byte: LOW, as slot 0 of every byte is. -/
theorem inv_nextByte {p : Params} {r : Regs} (hp : p.Legal) (h : Inv p r) (hph : r.ph = .send)
    (hb : r.bi.toNat < 5) : Inv p (nextByte p r) := by
  have hsucc : (r.bi + 1).toNat = r.bi.toNat + 1 := by bv_omega
  obtain ⟨htBit, -⟩ := hp
  obtain ⟨-, -, -, hrest⟩ := (seqInRange_send_iff hph).1 h.seq
  exact
    { seq := Iff.mpr (seqInRange_send_iff hph)
        ⟨hsucc.trans_le hb, Nat.zero_le _, Nat.sub_one_lt (by omega), hrest⟩
      pin := pinMatchesPhase_of_driven hph (h.pin.1.2 hph) rfl
      rsp := h.rsp }

/-- The end of the request: the wire is released and the settle delay begins. -/
theorem inv_startReceive {p : Params} {r : Regs} (hp : p.Legal) (h : Inv p r) (hph : r.ph = .send) :
    Inv p (startReceive p r) := by
  obtain ⟨-, htSettle, -⟩ := hp
  obtain ⟨-, -, -, hrest⟩ := (seqInRange_send_iff hph).1 h.seq
  exact
    { seq := Iff.mpr (seqInRange_settle_iff rfl) ⟨rfl, rfl, Nat.sub_one_lt (by omega), hrest⟩
      pin := pinMatchesPhase_of_released (by simp [startReceive]) rfl rfl
      rsp := h.rspInRange_of_busy (by simp [hph]) rfl rfl rfl }

theorem inv_specSend {p : Params} {r : Regs} (hp : p.Legal) (h : Inv p r) (hph : r.ph = .send) :
    Inv p (specSend p r) := by
  obtain ⟨ht, e⟩ | ⟨-, hs, e⟩ | ⟨-, -, hb, e⟩ | ⟨-, -, -, e⟩ := specSend_cases p r <;> rw [e]
  · exact inv_countDown h ht
  · exact inv_nextSlot hp h hph hs
  · exact inv_nextByte hp h hph hb
  · exact inv_startReceive hp h hph

/-! ### SETTLE and MEAS (R184, R185) -/

theorem inv_settleEdge {p : Params} {r : Regs} (hp : p.Legal) (h : Inv p r) (hph : r.ph = .settle) :
    Inv p (settleEdge r) := by
  obtain ⟨ht, e⟩ | ⟨-, e⟩ := settleEdge_cases r <;> rw [e]
  · exact inv_countDown h ht
  · obtain ⟨-, -, htTick, -⟩ := hp
    obtain ⟨hbi, -⟩ := (seqInRange_settle_iff hph).1 h.seq
    obtain ⟨hoe, ho⟩ := h.pin.released (by simp [hph])
    exact
      { seq := Iff.mpr (seqInRange_meas_iff rfl)
          ⟨hbi, Nat.zero_le _, htTick, Nat.zero_le _, fun _ => rfl, (Nat.zero_mul _).symm, Nat.one_pos⟩
        pin := pinMatchesPhase_of_released (by simp) hoe ho
        rsp := h.rspInRange_of_busy (by simp [hph]) rfl rfl rfl }

/-- A HIGH poll adds one `ACC_STEP` to the estimate, so that `acc = pcnt * ACC_STEP` stays. -/
theorem inv_highPoll {p : Params} {r : Regs} (hp : p.Legal) (h : Inv p r) (hph : r.ph = .meas)
    (hpcnt : r.pcnt < p.nTicks) : Inv p (highPoll p r) := by
  obtain ⟨-, -, htTick, -⟩ := hp
  obtain ⟨hbi, hsi, -, -, -, hacc, hrxsh⟩ := (seqInRange_meas_iff hph).1 h.seq
  have hacc' : r.acc + p.accStep = (r.pcnt + 1) * p.accStep := by rw [hacc, Nat.succ_mul]
  exact
    { seq := Iff.mpr (seqInRange_meas_iff hph)
        ⟨hbi, hsi, Nat.sub_one_lt (by omega), hpcnt, fun h0 => absurd h0 (Nat.succ_ne_zero _), hacc', hrxsh⟩
      pin := h.pin
      rsp := h.rsp }

/-- The end of a bit: the decoded bits gain bit `si`, or the eighth bit ends the bus cycle in the canonical idle
form. -/
theorem inv_endBit {p : Params} {r : Regs} (hp : p.Legal) (h : Inv p r) (hph : r.ph = .meas) :
    Inv p (endBit p r) := by
  obtain ⟨-, -, htTick, -⟩ := hp
  obtain ⟨hbi, -, -, -, -, -, hrxsh⟩ := (seqInRange_meas_iff hph).1 h.seq
  obtain ⟨hoe, ho⟩ := h.pin.released (by simp [hph])
  obtain ⟨hsi, e⟩ | ⟨-, e⟩ := endBit_cases p r <;> rw [e]
  · have hsucc : (r.si + 1).toNat = r.si.toNat + 1 := by bv_omega
    have hbits : (withDecodedBit p r).toNat < 2 ^ (r.si + 1).toNat :=
      hsucc ▸ setBit_toNat_lt r.rxsh r.si.toNat _ (by omega) hrxsh
    exact
      { seq := Iff.mpr (seqInRange_meas_iff hph)
          ⟨hbi, hsucc.trans_le hsi, htTick, Nat.zero_le _, fun _ => rfl, (Nat.zero_mul _).symm, hbits⟩
        pin := pinMatchesPhase_of_released (by simp [hph]) hoe ho
        rsp := h.rspInRange_of_busy (by simp [hph]) rfl rfl rfl }
  · exact Iff.mpr (inv_idle_iff rfl)
      ⟨⟨rfl, hbi, rfl, rfl, rfl, rfl, rfl, hoe, ho⟩,
        rspInRange_respond (r := { r with ph := .idle }) rfl .ok (withDecodedBit p r) (.inl rfl)⟩

theorem inv_measureEdge {p : Params} {r : Regs} (hp : p.Legal) (h : Inv p r) (hph : r.ph = .meas) (pin : Level) :
    Inv p (measureEdge p pin r) := by
  obtain ⟨ht, e⟩ | ⟨-, hpcnt, -, e⟩ | ⟨-, -, e⟩ := measureEdge_cases p pin r <;> rw [e]
  · exact inv_countDown h ht
  · exact inv_highPoll hp h hph hpcnt
  · exact inv_endBit hp h hph

/-! ### The obligations of 00_scope.md -/

/-- Settles O28: a reset edge gives the reset registers; otherwise the clearing of R181 and then the arm of the phase
each keep the invariant. -/
theorem specStepKeepsInvariant : Obligations.SpecStepKeepsInvariant := by
  intro p i r hp hinv
  have h : Inv p (clearRsp r) := inv_clearRsp hinv
  obtain ⟨-, e⟩ | ⟨-, hph, e⟩ | ⟨-, hph, e⟩ | ⟨-, hph, e⟩ | ⟨-, hph, e⟩ := specStep_cases p i r <;> rw [e]
  · exact inv_resetRegs p
  · exact inv_specIdle hp h hph rfl i
  · exact inv_specSend hp h hph
  · exact inv_settleEdge hp h hph
  · exact inv_measureEdge hp h hph i.pinI

/-- Settles O34: the instruction that runs in a busy phase counts down while the timer runs. -/
theorem waitingChangesOnlyTheTimer : Obligations.WaitingChangesOnlyTheTimer := by
  intro s hrst hbusy ht
  obtain ⟨i, hfetch, heffect⟩ := effect_fetch_of_waiting s hbusy ht
  simp only [step_eq, hrst, hfetch, heffect]
  rfl

end Sys2Proof.Safety

/-! PROOFS. `step` is the spec's `Step` of the registers and the inputs at the edge, so a fact about `specStep` is one about
`step`; what each arm of `Step` does to the response registers, and where it reads `pin_i`. -/

namespace Sys2Proof.Machine

/-! ### `step` is the spec's `Step` (R180 to R185) -/

theorem decodeCmd_of_setData {w : Word} (h : cmdOp w = 0x1#4) : decodeCmd w = .setData (cmdIdx w) (cmdVal w) := by
  simp [decodeCmd, h]

theorem decodeCmd_of_setMod {w : Word} (h : cmdOp w = 0x2#4) : decodeCmd w = .setMod (cmdIdx w) (cmdVal w) := by
  simp [decodeCmd, h]

theorem decodeCmd_of_comm {w : Word} (h : cmdOp w = 0x3#4) : decodeCmd w = .comm (cmdIdx w) (cmdVal w) := by
  simp [decodeCmd, h]

/-- The three rows of reserved words have one effect (R160). -/
theorem effect_decodeCmd_of_reserved {w : Word} (h1 : cmdOp w ≠ 0x1#4) (h2 : cmdOp w ≠ 0x2#4) (h3 : cmdOp w ≠ 0x3#4)
    (pin : Level) (r : Regs) : effect (decodeCmd w) pin r = accept (raise .errIllegal) r := by
  rw [decodeCmd, if_neg h1, if_neg h2, if_neg h3]
  by_cases h0 : cmdOp w = 0x0#4
  · rw [if_pos h0]; rfl
  · rw [if_neg h0]
    by_cases h7 : (cmdOp w).toNat < 8
    · rw [if_pos h7]; rfl
    · rw [if_neg h7]; rfl

/-- The command presented in IDLE has the effect of its row of R182. -/
theorem effect_decodeCmd_eq_specIdle {i : Input} {r : Regs} (hph : r.ph = .idle) (hv : i.cmdValid = true) (pin : Level) :
    effect (decodeCmd i.cmd) pin r = specIdle params i (clearRsp r) := by
  obtain ⟨hq, -⟩ | ⟨-, hop, e⟩ | ⟨-, hop, e⟩ | ⟨-, hop, e⟩ | ⟨-, h1, h2, h3, e⟩ := specIdle_cases params i (clearRsp r)
  · simp [hv] at hq
  · rw [e, decodeCmd_of_setData hop]; exact accept_idle _ r hph
  · rw [e, decodeCmd_of_setMod hop]; exact accept_idle _ r hph
  · rw [e, decodeCmd_of_comm hop]; exact accept_idle _ r hph
  · rw [e, effect_decodeCmd_of_reserved h1 h2 h3, accept_idle _ r hph]

/-- Within a byte, an edge of SENDBYTE is the first two cases of R183. -/
theorem sendByteEdge_eq_specSend {p : Params} {r : Regs} (h : byteInProgress r = true) :
    sendByteEdge p (txByte p r r.bi) r = specSend p r := by
  have hend : ¬ 0 < r.tmr → r.si.toNat < 10 := ((byteInProgress_iff r).1 h).2.resolve_left
  rw [sendByteEdge, if_pos h, slotEdge, specSend]
  by_cases ht : 0 < r.tmr
  · rw [if_pos ht, if_pos ht]; rfl
  · rw [if_neg ht, if_neg ht, if_pos (hend ht)]; rfl

/-- In SEND with no byte in progress the last stop slot has ended. -/
theorem slotsEnded_of_not_byteInProgress {r : Regs} (hph : r.ph = .send) (h : byteInProgress r = false) :
    r.tmr = 0 ∧ 10 ≤ r.si.toNat := by
  simpa [byteInProgress, hph] using h

/-- At the end of byte 0..4, an edge of SENDFRAME is the third case of R183, whatever the bytes. -/
theorem sendFrameEdge_eq_specSend {p : Params} {r : Regs} (hph : r.ph = .send) (h : byteInProgress r = false)
    (hb : r.bi.toNat < 5) (bytes : BitVec 3 → Byte) : sendFrameEdge p bytes r = specSend p r := by
  obtain ⟨ht, hs⟩ := slotsEnded_of_not_byteInProgress hph h
  rw [sendFrameEdge, if_neg (by simp [h]), if_pos ⟨hph, hb⟩, specSend, if_neg (by omega), if_neg (by omega), if_pos hb]
  rfl

/-- At the end of byte 5, the start of RECVBYTE is the last case of R183. -/
theorem startReceive_eq_specSend {p : Params} {r : Regs} (hph : r.ph = .send) (h : byteInProgress r = false)
    (hb : ¬ r.bi.toNat < 5) : startReceive p r = specSend p r := by
  obtain ⟨ht, hs⟩ := slotsEnded_of_not_byteInProgress hph h
  rw [startReceive_eq, specSend, if_neg (by omega), if_neg (by omega), if_neg hb]

/-- What is fetched in SEND has the effect of R183. -/
theorem effect_fetchSend_eq_specSend {r : Regs} (hph : r.ph = .send) (pin : Level) :
    effect (fetchSend params r) pin r = specSend params (clearRsp r) := by
  cases hin : byteInProgress r with
  | true =>
    rw [fetchSend, if_pos hin]
    exact sendByteEdge_eq_specSend (r := clearRsp r) hin
  | false =>
    rw [fetchSend, if_neg (by simp [hin])]
    by_cases hb : r.bi.toNat < 5
    · rw [if_pos hb]
      exact sendFrameEdge_eq_specSend (r := clearRsp r) hph hin hb _
    · rw [if_neg hb]
      exact (recvByteEdge_start params pin (clearRsp r) (.inr hph)).trans (startReceive_eq_specSend hph hin hb)

/-- The registers after a step are those of the spec's `Step`, in every state (R180). -/
theorem step_eq_specStep (s : State) :
    step s = .next ⟨specStep params (inputNow s) s.toRegs, envAfter s⟩ := by
  rw [step_eq]
  refine congrArg (fun r : Regs => Host.Outcome.next (State.mk r (envAfter s))) ?_
  obtain ⟨hrst, e⟩ | ⟨hrst, hph, e⟩ | ⟨hrst, hph, e⟩ | ⟨hrst, hph, e⟩ | ⟨hrst, hph, e⟩ :=
    specStep_cases params (inputNow s) s.toRegs <;> rw [e, hrst]
  · rfl
  · cases hv : (inputNow s).cmdValid with
    | false => simp [fetch, hph, specIdle, hv]
    | true => simpa [fetch, hph, hv] using effect_decodeCmd_eq_specIdle hph hv _
  · simpa [fetch, hph] using effect_fetchSend_eq_specSend hph _
  · simpa [fetch, hph, effect] using recvByteEdge_settle params _ (clearRsp s.toRegs) hph
  · simpa [fetch, hph, effect] using recvByteEdge_meas params _ (clearRsp s.toRegs) hph

/-- What a step answers, read off its answer. -/
theorem toRegs_of_step {s t : State} (h : step s = .next t) : t.toRegs = specStep params (inputNow s) s.toRegs := by
  rw [step_eq_specStep] at h
  cases h
  rfl

/-! ### Where `pin_i` is read (R21, R185) -/

/-- A cycle of the measurements that is no poll, or comes after the last one, does not read the line. -/
theorem measureEdge_ignores_pin {p : Params} {r : Regs} (h : 0 < r.tmr ∨ p.nTicks ≤ r.pcnt) (l l' : Level) :
    measureEdge p l r = measureEdge p l' r := by
  obtain ht | hn := h
  · rw [measureEdge_of_waiting p l r ht, measureEdge_of_waiting p l' r ht]
  · simp [measureEdge, hn.not_gt]

theorem specStep_meas (p : Params) (i : Input) {r : Regs} (hph : r.ph = .meas) :
    specStep p i r = if i.rst then resetRegs p else measureEdge p i.pinI (clearRsp r) := by
  simp [specStep, hph, clearRsp, specMeas_eq_measureEdge]

theorem specStep_ignores_pin (p : Params) (i : Input) (r : Regs) (l : Level)
    (h : r.ph ≠ .meas ∨ 0 < r.tmr ∨ p.nTicks ≤ r.pcnt) : specStep p { i with pinI := l } r = specStep p i r := by
  cases hph : r.ph with
  | idle => simp only [specStep, hph]; rfl
  | send => simp only [specStep, hph]
  | settle => simp only [specStep, hph]
  | meas =>
    have hpoll : 0 < (clearRsp r).tmr ∨ p.nTicks ≤ (clearRsp r).pcnt := h.resolve_left (not_not_intro hph)
    rw [specStep_meas p _ hph, specStep_meas p i hph, measureEdge_ignores_pin hpoll l i.pinI]

/-! ### The response registers after an edge (R17, R154, R181) -/

/-- No response is shown: all three response registers are 0 (R17). -/
def Silent (r : Regs) : Prop := r.rspValid = false ∧ r.rspStatus = 0 ∧ r.rspData = 0

/-- A command other than COMM is presented: in IDLE it is answered at once (R182). -/
def AnswersCommand (i : Input) : Prop := i.cmdValid = true ∧ cmdOp i.cmd ≠ 0x3#4

/-- The eighth measurement ends at this edge of MEAS (R185). -/
def EndsEighthBit (p : Params) (pin : Level) (r : Regs) : Prop :=
  r.tmr = 0 ∧ 7 ≤ r.si.toNat ∧ (p.nTicks ≤ r.pcnt ∨ pin = LOW)

theorem silent_clearRsp (r : Regs) : Silent (clearRsp r) := ⟨rfl, rfl, rfl⟩

theorem silent_resetRegs (p : Params) : Silent (resetRegs p) := ⟨rfl, rfl, rfl⟩

theorem writeData_eq_respond (idx : BitVec 4) (val : Byte) (r : Regs) : ∃ st r', writeData idx val r = respond st 0 r' := by
  by_cases h : idx.toNat ≤ 3
  · exact ⟨_, _, writeData_legal idx val r h⟩
  · exact ⟨_, _, writeData_illegal idx val r h⟩

theorem writeMod_eq_respond (idx : BitVec 4) (r : Regs) : ∃ st r', writeMod idx r = respond st 0 r' := by
  by_cases h : idx.toNat ≤ 3
  · exact ⟨_, _, writeMod_legal idx r h⟩
  · exact ⟨_, _, writeMod_illegal idx r h⟩

/-- In IDLE: an answer that carries 0x00, or silence. -/
theorem specIdle_response (p : Params) (i : Input) {r : Regs} (h : Silent r) :
    (AnswersCommand i ∧ ∃ st r', specIdle p i r = respond st 0 r') ∨ (¬ AnswersCommand i ∧ Silent (specIdle p i r)) := by
  obtain ⟨hv, e⟩ | ⟨hv, hop, e⟩ | ⟨hv, hop, e⟩ | ⟨-, hop, e⟩ | ⟨hv, -, -, hop, e⟩ := specIdle_cases p i r <;> rw [e]
  · exact .inr ⟨by simp [AnswersCommand, hv], h⟩
  · exact .inl ⟨⟨hv, by simp [hop]⟩, writeData_eq_respond _ _ r⟩
  · exact .inl ⟨⟨hv, by simp [hop]⟩, writeMod_eq_respond _ r⟩
  · exact .inr ⟨by simp [AnswersCommand, hop], h⟩
  · exact .inl ⟨⟨hv, hop⟩, .errIllegal, r, rfl⟩

theorem silent_specSend (p : Params) {r : Regs} (h : Silent r) : Silent (specSend p r) := by
  obtain ⟨-, e⟩ | ⟨-, -, e⟩ | ⟨-, -, -, e⟩ | ⟨-, -, -, e⟩ := specSend_cases p r <;> rw [e] <;> exact h

theorem silent_settleEdge {r : Regs} (h : Silent r) : Silent (settleEdge r) := by
  obtain ⟨-, e⟩ | ⟨-, e⟩ := settleEdge_cases r <;> rw [e] <;> exact h

/-- In MEAS: the decoded byte with status OK at the end of the eighth bit, or silence. -/
theorem measureEdge_response (p : Params) (pin : Level) {r : Regs} (h : Silent r) :
    (EndsEighthBit p pin r ∧ ∃ d r', measureEdge p pin r = respond .ok d r') ∨
      (¬ EndsEighthBit p pin r ∧ Silent (measureEdge p pin r)) := by
  obtain ⟨ht, e⟩ | ⟨-, hpcnt, hpin, e⟩ | ⟨ht, hend, e⟩ := measureEdge_cases p pin r <;> rw [e]
  · exact .inr ⟨fun hdue => ht.ne' hdue.1, h⟩
  · exact .inr ⟨by simp [EndsEighthBit, hpcnt, hpin], h⟩
  · have hlast : p.nTicks ≤ r.pcnt ∨ pin = LOW := (not_and_or.1 hend).imp not_lt.1 Bool.eq_false_of_not_eq_true
    obtain ⟨hsi, e'⟩ | ⟨hsi, -⟩ := endBit_cases p r
    · exact .inr ⟨fun hdue => absurd hdue.2.1 (by omega), e' ▸ h⟩
    · exact .inl ⟨⟨ht, hsi, hlast⟩, withDecodedBit p r, _, if_neg (by omega)⟩

/-- A response is due at this edge: `rst = 0`, and a command is answered or the eighth measurement ends (R154). -/
def ResponseDue (p : Params) (i : Input) (r : Regs) : Prop :=
  i.rst = false ∧ ((r.ph = .idle ∧ AnswersCommand i) ∨ (r.ph = .meas ∧ EndsEighthBit p i.pinI r))

/-- The response registers after the spec's `Step`: a command's answer carries 0x00, a measured byte has status OK, and
every edge at which none is due leaves them 0. -/
theorem specStep_response (p : Params) (i : Input) (r : Regs) :
    (ResponseDue p i r ∧ ∃ st r', specStep p i r = respond st 0 r') ∨
    (ResponseDue p i r ∧ r.ph = .meas ∧ ∃ d r', specStep p i r = respond .ok d r') ∨
    (¬ ResponseDue p i r ∧ Silent (specStep p i r)) := by
  obtain ⟨hrst, e⟩ | ⟨hrst, hph, e⟩ | ⟨hrst, hph, e⟩ | ⟨hrst, hph, e⟩ | ⟨hrst, hph, e⟩ := specStep_cases p i r <;> rw [e]
  · exact .inr (.inr ⟨by simp [ResponseDue, hrst], silent_resetRegs p⟩)
  · obtain ⟨hdue, hrsp⟩ | ⟨hdue, hsilent⟩ := specIdle_response p i (silent_clearRsp r)
    · exact .inl ⟨⟨hrst, .inl ⟨hph, hdue⟩⟩, hrsp⟩
    · exact .inr (.inr ⟨by simp [ResponseDue, hph, hdue], hsilent⟩)
  · exact .inr (.inr ⟨by simp [ResponseDue, hph], silent_specSend p (silent_clearRsp r)⟩)
  · exact .inr (.inr ⟨by simp [ResponseDue, hph], silent_settleEdge (silent_clearRsp r)⟩)
  · obtain ⟨hdue, hrsp⟩ | ⟨hdue, hsilent⟩ := measureEdge_response p i.pinI (silent_clearRsp r)
    · exact .inr (.inl ⟨⟨hrst, .inr ⟨hph, hdue⟩⟩, hph, hrsp⟩)
    · exact .inr (.inr ⟨fun h => hdue (by simpa [ResponseDue, hph, hrst, EndsEighthBit] using h), hsilent⟩)

/-- The status of R71 is never 3. -/
theorem Status.code_ne_three (st : Status) : st.code ≠ 3#2 := by
  cases st <;> decide

end Sys2Proof.Machine

namespace Sys2Proof.Safety

open Sys2Proof.Machine

/-! ### The obligations of 10_state.md -/

/-- Settles O27: a step is the spec's `Step` at the nominal parameters, which are legal, and that keeps the invariant
(O28). -/
theorem stepKeepsInvariant : Obligations.StepKeepsInvariant := by
  intro s t hinv hstep
  rw [toRegs_of_step hstep]
  exact specStepKeepsInvariant params (inputNow s) s.toRegs (by decide) hinv

/-- Settles O31: the response registers after the spec's `Step`, case by case. -/
theorem responseExactlyWhenDue : Obligations.ResponseExactlyWhenDue := by
  intro s t hstep
  show (t.toRegs.rspValid = true ↔ ResponseDue params (inputNow s) s.toRegs) ∧ _
  rw [toRegs_of_step hstep]
  obtain ⟨hdue, st, r', e⟩ | ⟨hdue, hph, d, r', e⟩ | ⟨hdue, hv, hs, hd⟩ :=
    specStep_response params (inputNow s) s.toRegs
  · simp [e, hdue, st.code_ne_three]
  · simp [e, hdue, hph, Status.code]
  · simp [hdue, hv, hs, hd]

/-- Settles O32: two lines give inputs that differ in `pin_i` alone, which the spec's `Step` reads at a poll only. -/
theorem pinReadOnlyAtPolls : Obligations.PinReadOnlyAtPolls := by
  intro s pins edge h
  exact ⟨_, _, step_eq_specStep s, step_eq_specStep _,
    (specStep_ignores_pin params (inputNow s) s.toRegs (pinNow { s.env with pins := pins, edge := edge }) h).symm⟩

/-- Settles O1: an edge with `rst = 1` gives the registers of `State.reset`, and those are the table of R22. -/
theorem resetStateValues : Obligations.ResetStateValues := by
  intro s h
  have hreset : s.toRegs = resetRegs params := by
    obtain rfl | ⟨s0, hrst, hstep⟩ := h
    · rfl
    · rw [toRegs_of_step hstep, specStep, if_pos hrst]
  rw [hreset]
  exact ⟨rfl, rfl, rfl, rfl, rfl, rfl, rfl, rfl, rfl, rfl, rfl, rfl, rfl, rfl, rfl, rfl⟩

/-- Settles O26: `State.reset` holds the reset registers of the nominal parameters. -/
theorem resetMeetsInvariant : Obligations.ResetMeetsInvariant :=
  ⟨inv_resetRegs params, inv_resetRegs⟩

end Sys2Proof.Safety

/-! PROOFS. What each host command writes and what it leaves; the checksum byte as a high nibble of the data and a low
nibble of the module index. -/

namespace Sys2Proof.Machine

/-! ### The frame of a host command (R46, R150 to R153, R160) -/

/-- SETDATA writes `data` alone beside the response, and of it only the byte it names. -/
theorem writeData_frame (idx : BitVec 4) (val : Byte) (r : Regs) :
    ∃ st d, writeData idx val r = respond st 0 { r with data := d } ∧
      ∀ k (hk : k < 4), k ≠ idx.toNat → d[k] = r.data[k] := by
  by_cases h : idx.toNat ≤ 3
  · exact ⟨_, _, writeData_legal idx val r h, fun k hk hne => Vector.getElem_set_ne _ hk hne.symm⟩
  · exact ⟨_, r.data, writeData_illegal idx val r h, fun _ _ _ => rfl⟩

/-- SETMOD writes `mod` alone beside the response. -/
theorem writeMod_frame (idx : BitVec 4) (r : Regs) : ∃ st m, writeMod idx r = respond st 0 { r with mod := m } := by
  by_cases h : idx.toNat ≤ 3
  · exact ⟨_, _, writeMod_legal idx r h⟩
  · exact ⟨_, r.mod, writeMod_illegal idx r h⟩

/-- Outside IDLE no row of R66 has an effect of its own (R153). -/
theorem effect_decodeCmd_busy (w : Word) (pin : Level) {r : Regs} (hph : r.ph ≠ .idle) :
    effect (decodeCmd w) pin r = clearRsp r := by
  rw [decodeCmd]
  split_ifs <;> exact accept_busy _ r hph

/-- Everything a command word can do, in IDLE and outside it. -/
theorem effect_decodeCmd_cases (w : Word) (pin : Level) (r : Regs) :
    (r.ph ≠ .idle ∧ effect (decodeCmd w) pin r = clearRsp r) ∨
    (r.ph = .idle ∧ cmdOp w = 0x1#4 ∧
      effect (decodeCmd w) pin r = writeData (cmdIdx w) (cmdVal w) (clearRsp r)) ∨
    (r.ph = .idle ∧ cmdOp w = 0x2#4 ∧ effect (decodeCmd w) pin r = writeMod (cmdIdx w) (clearRsp r)) ∨
    (r.ph = .idle ∧ cmdOp w = 0x3#4 ∧ effect (decodeCmd w) pin r = startFrame params (clearRsp r)) ∨
    (r.ph = .idle ∧ cmdOp w ≠ 0x1#4 ∧ cmdOp w ≠ 0x2#4 ∧ cmdOp w ≠ 0x3#4 ∧
      effect (decodeCmd w) pin r = raise .errIllegal (clearRsp r)) := by
  by_cases hph : r.ph = .idle
  · rw [effect_decodeCmd_eq_specIdle (i := ⟨false, true, w, pin⟩) hph rfl pin]
    simpa [hph] using specIdle_cases params ⟨false, true, w, pin⟩ (clearRsp r)
  · exact .inl ⟨hph, effect_decodeCmd_busy w pin hph⟩

/-! ### The two nibbles of the checksum byte (R140, R143) -/

/-- The mask of R140 keeps the high nibble, and the index fills the low one. -/
theorem ofNat_mask_or_index (c : Nat) (m : ModIndex) :
    BitVec.ofNat 8 (c &&& 0xF0 ||| m.toNat) = (BitVec.ofNat 8 c).extractLsb' 4 4 ++ m.setWidth 4 := by
  refine BitVec.eq_of_getLsbD_eq fun i hi => ?_
  rw [BitVec.getLsbD_append]
  interval_cases i <;> simp

/-- The checksum byte is a high nibble that the data give, and the index below it. -/
theorem checksum_eq_append (W : Nat) (d0 d1 d2 d3 : Byte) :
    ∃ c : BitVec 4, ∀ m : ModIndex, checksum W d0 d1 d2 d3 m = c ++ m.setWidth 4 :=
  ⟨_, ofNat_mask_or_index _⟩

end Sys2Proof.Machine

namespace Sys2Proof.Safety

open Sys2Proof.Machine

/-! ### The obligations of 20_memory.md -/

/-- Settles O12: word by word, what the command writes (`effect_decodeCmd_cases`) is what the frame allows it. -/
theorem commandFrame : Obligations.CommandFrame := by
  intro w s t hexec
  rw [exec_eq] at hexec
  cases hexec
  obtain ⟨-, e⟩ | ⟨-, hop, e⟩ | ⟨-, hop, e⟩ | ⟨-, hop, e⟩ | ⟨-, -, -, -, e⟩ :=
    effect_decodeCmd_cases w (inputNow s).pinI s.toRegs
  · simp [e]
  · obtain ⟨st, d, ewrite, hd⟩ := writeData_frame (cmdIdx w) (cmdVal w) (clearRsp s.toRegs)
    simpa [e, ewrite, hop] using hd
  · obtain ⟨st, m, ewrite⟩ := writeMod_frame (cmdIdx w) (clearRsp s.toRegs)
    simp [e, ewrite, hop]
  · simp [e, hop, startFrame, startByte]
  · simp [e]

/-- Settles O38: both checksum bytes are one high nibble above their index, and the index is read back from the low one. -/
theorem moduleIndexChangesOnlyTheLowNibble : Obligations.ModuleIndexChangesOnlyTheLowNibble := by
  intro W d0 d1 d2 d3 m m' hne
  obtain ⟨c, hc⟩ := checksum_eq_append W d0 d1 d2 d3
  refine ⟨rfl, ?_, ?_⟩
  · rw [hc, hc, BitVec.extractLsb'_append_eq_left, BitVec.extractLsb'_append_eq_left]
  · rw [hc, hc, BitVec.extractLsb'_append_eq_right, BitVec.extractLsb'_append_eq_right]
    exact fun h => hne (by simpa using congrArg (BitVec.setWidth 2) h)

end Sys2Proof.Safety

/-! PROOFS. The command word and its fields, the decoder and the encoder row by row; the slots of a byte and of a request,
cut into bytes and put together again. -/

namespace Sys2Proof.Machine

/-! ### The fields of a command word (R65) -/

@[simp] theorem cmdOp_fields (op idx : BitVec 4) (val : Byte) : cmdOp (op ++ idx ++ val) = op :=
  (BitVec.extractLsb'_append_eq_of_le (by decide)).trans BitVec.extractLsb'_append_eq_left

@[simp] theorem cmdIdx_fields (op idx : BitVec 4) (val : Byte) : cmdIdx (op ++ idx ++ val) = idx :=
  (BitVec.extractLsb'_append_eq_of_le (by decide)).trans BitVec.extractLsb'_append_eq_right

@[simp] theorem cmdVal_fields (op idx : BitVec 4) (val : Byte) : cmdVal (op ++ idx ++ val) = val :=
  BitVec.extractLsb'_append_eq_right

@[simp] theorem cmdOp_append_low (op : BitVec 4) (low : BitVec 12) : cmdOp (op ++ low) = op :=
  BitVec.extractLsb'_append_eq_left

@[simp] theorem cmdLow_append_low (op : BitVec 4) (low : BitVec 12) : cmdLow (op ++ low) = low :=
  BitVec.extractLsb'_append_eq_right

/-- A word is its opcode above the other twelve bits. -/
theorem cmdOp_append_cmdLow (w : Word) : cmdOp w ++ cmdLow w = w :=
  (BitVec.extractLsb'_append_extractLsb'_eq_extractLsb' rfl).trans BitVec.extractLsb'_eq_self

/-- A word is its three fields, `op` first. -/
theorem cmdOp_append_cmdIdx_append_cmdVal (w : Word) : cmdOp w ++ cmdIdx w ++ cmdVal w = w := by
  have h : cmdOp w ++ cmdIdx w = w.extractLsb' 8 8 := BitVec.extractLsb'_append_extractLsb'_eq_extractLsb' rfl
  rw [h]
  exact (BitVec.extractLsb'_append_extractLsb'_eq_extractLsb' rfl).trans BitVec.extractLsb'_eq_self

/-- A row's `match` and `mask` say of the opcode what their own opcode bits say (R66). -/
theorem cmdOp_and_eq_of_masked {w m v : Word} (h : w &&& m = v) : cmdOp w &&& cmdOp m = cmdOp v :=
  BitVec.extractLsb'_and.symm.trans (congrArg cmdOp h)

/-- The mask of the rows of one opcode keeps the opcode. -/
theorem cmdOp_eq_of_masked {w v : Word} (h : w &&& 0xF000 = v) : cmdOp w = cmdOp v :=
  BitVec.and_allOnes.symm.trans (cmdOp_and_eq_of_masked h)

theorem opcode_of_masked_reserved47 :
    ∀ op : BitVec 4, op &&& cmdOp 0xC000 = cmdOp 0x4000 → 4 ≤ op.toNat ∧ op.toNat < 8 := by decide

theorem opcode_of_masked_reserved8F : ∀ op : BitVec 4, op &&& cmdOp 0x8000 = cmdOp 0x8000 → 8 ≤ op.toNat := by decide

/-! ### The decoder and the encoder, row by row (R66) -/

theorem decodeCmd_of_reserved0 {w : Word} (h : cmdOp w = 0x0#4) : decodeCmd w = .reserved0 (cmdLow w) := by
  simp [decodeCmd, h]

/-- The low bits of the opcode, which a reserved word of more than one opcode keeps. -/
theorem extractLsb'_twelve_eq_cmdOp (w : Word) {n : Nat} (hn : n ≤ 4) : w.extractLsb' 12 n = (cmdOp w).extractLsb' 0 n := by
  refine BitVec.eq_of_getLsbD_eq fun i hi => ?_
  have hi4 : i < 4 := by omega
  simp [cmdOp, hi, hi4]

theorem decodeCmd_of_four_le {w : Word} (h : 4 ≤ (cmdOp w).toNat) :
    decodeCmd w = if (cmdOp w).toNat < 8 then .reserved47 ((cmdOp w).extractLsb' 0 2) (cmdLow w)
      else .reserved8F ((cmdOp w).extractLsb' 0 3) (cmdLow w) := by
  have hne : ∀ op : BitVec 4, op.toNat < 4 → cmdOp w ≠ op := by
    rintro op hop rfl
    omega
  rw [decodeCmd, if_neg (hne _ (by decide)), if_neg (hne _ (by decide)), if_neg (hne _ (by decide)),
    if_neg (hne _ (by decide)), extractLsb'_twelve_eq_cmdOp w (by decide), extractLsb'_twelve_eq_cmdOp w (by decide)]

theorem decodeCmd_of_reserved47 {w : Word} (h4 : 4 ≤ (cmdOp w).toNat) (h8 : (cmdOp w).toNat < 8) :
    decodeCmd w = .reserved47 ((cmdOp w).extractLsb' 0 2) (cmdLow w) :=
  (decodeCmd_of_four_le h4).trans (if_pos h8)

theorem decodeCmd_of_reserved8F {w : Word} (h8 : 8 ≤ (cmdOp w).toNat) :
    decodeCmd w = .reserved8F ((cmdOp w).extractLsb' 0 3) (cmdLow w) :=
  (decodeCmd_of_four_le (by omega)).trans (if_neg (by omega))

/-- The six rows of R66 cover every opcode. -/
theorem opcode_rows : ∀ op : BitVec 4,
    op = 0x1#4 ∨ op = 0x2#4 ∨ op = 0x3#4 ∨ op = 0x0#4 ∨ (4 ≤ op.toNat ∧ op.toNat < 8) ∨ 8 ≤ op.toNat := by decide

theorem fixedBits_reserved47 :
    ∀ op : BitVec 4, 4 ≤ op.toNat → op.toNat < 8 → 0b01#2 ++ op.extractLsb' 0 2 = op := by decide

theorem fixedBits_reserved8F : ∀ op : BitVec 4, 8 ≤ op.toNat → 0b1#1 ++ op.extractLsb' 0 3 = op := by decide

/-- No bit of a command word is lost by the decoder (R65, R66, R69). -/
theorem encode_decodeCmd (w : Word) : encode (decodeCmd w) = .cmd w := by
  obtain h | h | h | h | ⟨h4, h8⟩ | h8 := opcode_rows (cmdOp w)
  · rw [decodeCmd_of_setData h, encode, ← h, cmdOp_append_cmdIdx_append_cmdVal]
  · rw [decodeCmd_of_setMod h, encode, ← h, cmdOp_append_cmdIdx_append_cmdVal]
  · rw [decodeCmd_of_comm h, encode, ← h, cmdOp_append_cmdIdx_append_cmdVal]
  · rw [decodeCmd_of_reserved0 h, encode, ← h, cmdOp_append_cmdLow]
  · rw [decodeCmd_of_reserved47 h4 h8, encode, fixedBits_reserved47 _ h4 h8, cmdOp_append_cmdLow]
  · rw [decodeCmd_of_reserved8F h8, encode, fixedBits_reserved8F _ h8, cmdOp_append_cmdLow]

/-- The fixed bits of an instruction's encoding are those of every word that decodes to it. -/
theorem masked_of_decodeCmd {w x m v : Word} {i : Instr} (h : decodeCmd w = i) (henc : encode i = .cmd x)
    (hx : x &&& m = v) : w &&& m = v := by
  obtain rfl : w = x := Code.cmd.inj ((encode_decodeCmd w).symm.trans (h ▸ henc))
  exact hx

theorem decodeCmd_reserved47_word (op : BitVec 2) (low : BitVec 12) :
    decodeCmd (0b01#2 ++ op ++ low) = .reserved47 op low := by
  have hrow : ∀ op : BitVec 2, 4 ≤ (0b01#2 ++ op).toNat ∧ (0b01#2 ++ op).toNat < 8 := by decide
  have hop : cmdOp (0b01#2 ++ op ++ low) = 0b01#2 ++ op := cmdOp_append_low _ low
  have hlow : cmdLow (0b01#2 ++ op ++ low) = low := cmdLow_append_low _ low
  rw [decodeCmd_of_reserved47 (by rw [hop]; exact (hrow op).1) (by rw [hop]; exact (hrow op).2), hop, hlow,
    BitVec.extractLsb'_append_eq_right]

theorem decodeCmd_reserved8F_word (op : BitVec 3) (low : BitVec 12) :
    decodeCmd (0b1#1 ++ op ++ low) = .reserved8F op low := by
  have hrow : ∀ op : BitVec 3, 8 ≤ (0b1#1 ++ op).toNat := by decide
  have hop : cmdOp (0b1#1 ++ op ++ low) = 0b1#1 ++ op := cmdOp_append_low _ low
  have hlow : cmdLow (0b1#1 ++ op ++ low) = low := cmdLow_append_low _ low
  rw [decodeCmd_of_reserved8F (by rw [hop]; exact hrow op), hop, hlow, BitVec.extractLsb'_append_eq_right]

/-! ### The eleven slots of a byte (R60, R61) -/

/-- Bit `k` of the byte is bit `k` of the list, the first being the least significant (R41). -/
theorem testBit_foldr_bits (bits : List Bool) (k : Nat) :
    (bits.foldr (fun (b : Bool) n => 2 * n + b.toNat) 0).testBit k = bits[k]?.getD false := by
  induction bits generalizing k with
  | nil => simp
  | cons b bits ih =>
    rw [List.foldr_cons, ← Nat.bit_val]
    cases k with
    | zero => simp
    | succ k => rw [Nat.testBit_bit_succ, ih, List.getElem?_cons_succ]

theorem byteOfBits_getLsbD (bits : List Bool) {k : Nat} (hk : k < 8) :
    (byteOfBits bits).getLsbD k = bits[k]?.getD false := by
  rw [byteOfBits, BitVec.getLsbD_ofNat, testBit_foldr_bits]
  simp [hk]

theorem byteOfBits_range_getLsbD (v : Byte) : byteOfBits ((List.range 8).map v.getLsbD) = v := by
  refine BitVec.eq_of_getLsbD_eq fun k hk => ?_
  rw [byteOfBits_getLsbD _ hk]
  simp [hk]

theorem byteSlots_byteOfBits (b0 b1 b2 b3 b4 b5 b6 b7 : Bool) :
    byteSlots (byteOfBits [b0, b1, b2, b3, b4, b5, b6, b7]) = [LOW, b0, b1, b2, b3, b4, b5, b6, b7, HIGH, HIGH] := by
  simp [byteSlots, List.range_succ, slotLevel, byteOfBits_getLsbD, -BitVec.getLsbD_eq_getElem]

/-- The decoder of a byte accepts the slots of that byte and no others. -/
theorem decodeByteSlots_eq_ok_iff {k : Nat} {l : List Level} {v : Byte} :
    decodeByteSlots k l = .ok v ↔ l = byteSlots v := by
  constructor
  · intro h
    unfold decodeByteSlots at h
    split at h
    · split_ifs at h with h0 hstop
      cases h
      rw [byteSlots_byteOfBits]
      simp_all
    · cases h
  · rintro rfl
    exact congrArg Except.ok (byteOfBits_range_getLsbD v)

/-! ### The bytes of a run of slots (R62) -/

/-- Slot `j` is slot `j mod 11` of byte `j / 11`, however many bytes there are. -/
theorem flatMap_byteSlots_getElem? (vs : List Byte) (j : Nat) :
    (vs.flatMap byteSlots)[j]? = vs[j / 11]?.map fun v => slotLevel v (j % 11) := by
  induction vs generalizing j with
  | nil => rfl
  | cons v vs ih =>
    rw [List.flatMap_cons]
    by_cases hj : j < 11
    · rw [List.getElem?_append_left (by simpa using hj), byteSlots_getElem? v j hj, Nat.div_eq_of_lt hj,
        Nat.mod_eq_of_lt hj]
      rfl
    · obtain ⟨n, rfl⟩ := Nat.exists_eq_add_of_le' (Nat.le_of_not_lt hj)
      rw [List.getElem?_append_right (by simp), byteSlots_length, Nat.add_sub_cancel, ih,
        Nat.add_div_right n (by decide), Nat.add_mod_right, List.getElem?_cons_succ]

theorem flatMap_byteSlots_length (vs : List Byte) : (vs.flatMap byteSlots).length = 11 * vs.length := by
  simp [List.length_flatMap, Nat.mul_comm]

theorem decodeFrameByte_eq_ok_iff {l : List Level} {k : Nat} {v : Byte} :
    decodeFrameByte l k = .ok v ↔ ∀ s < 11, l[11 * k + s]? = some (slotLevel v s) := by
  rw [decodeFrameByte, decodeByteSlots_eq_ok_iff, List.ext_getElem?_iff]
  refine forall_congr' fun s => ?_
  by_cases hs : s < 11
  · rw [byteSlots_getElem? v s hs, List.getElem?_take_of_lt hs, List.getElem?_drop]
    simp [hs]
  · simp [hs, byteSlots]

/-- A run of slots is the slots of the bytes `vs` exactly when it is as long as they are and each `vs[k]` is decoded from
its place. -/
theorem eq_flatMap_byteSlots_iff {l : List Level} {vs : List Byte} :
    l = vs.flatMap byteSlots ↔
      l.length = 11 * vs.length ∧ ∀ k : Fin vs.length, decodeFrameByte l k = .ok vs[k] := by
  constructor
  · rintro rfl
    refine ⟨flatMap_byteSlots_length vs, fun ⟨k, hk⟩ => decodeFrameByte_eq_ok_iff.2 fun s hs => ?_⟩
    rw [flatMap_byteSlots_getElem?, Nat.mul_add_div (by decide), Nat.mul_add_mod, Nat.div_eq_of_lt hs,
      Nat.mod_eq_of_lt hs, Nat.add_zero, List.getElem?_eq_getElem hk]
    rfl
  · rintro ⟨hlen, hbytes⟩
    refine List.ext_getElem? fun j => ?_
    by_cases hj : j < 11 * vs.length
    · have hk : j / 11 < vs.length := Nat.div_lt_of_lt_mul hj
      have hslot := decodeFrameByte_eq_ok_iff.1 (hbytes ⟨_, hk⟩) (j % 11) (Nat.mod_lt j (by decide))
      rw [Nat.div_add_mod] at hslot
      rw [hslot, flatMap_byteSlots_getElem?, List.getElem?_eq_getElem hk]
      rfl
    · rw [List.getElem?_eq_none (by omega), List.getElem?_eq_none (by rw [flatMap_byteSlots_length]; omega)]

theorem requestSlots_eq_flatMap (d0 d1 d2 d3 cs : Byte) :
    requestSlots d0 d1 d2 d3 cs = [header, d0, d1, d2, d3, cs].flatMap byteSlots := by
  simp [requestSlots]

theorem requestSlots_length (d0 d1 d2 d3 cs : Byte) : (requestSlots d0 d1 d2 d3 cs).length = 66 := by
  rw [requestSlots_eq_flatMap, flatMap_byteSlots_length]
  rfl

theorem eq_requestSlots_iff {l : List Level} {d0 d1 d2 d3 cs : Byte} :
    l = requestSlots d0 d1 d2 d3 cs ↔ l.length = 66 ∧
      decodeFrameByte l 0 = .ok header ∧ decodeFrameByte l 1 = .ok d0 ∧ decodeFrameByte l 2 = .ok d1 ∧
      decodeFrameByte l 3 = .ok d2 ∧ decodeFrameByte l 4 = .ok d3 ∧ decodeFrameByte l 5 = .ok cs := by
  rw [requestSlots_eq_flatMap, eq_flatMap_byteSlots_iff]
  simp [Fin.forall_fin_succ]

theorem except_bind_eq_ok_iff {ε α β : Type} {x : Except ε α} {f : α → Except ε β} {b : β} :
    x >>= f = .ok b ↔ ∃ a, x = .ok a ∧ f a = .ok b := by
  cases x <;> simp [bind, Except.bind]

theorem except_map_eq_ok_iff {ε α β : Type} {x : Except ε α} {f : α → β} {b : β} :
    x.map f = .ok b ↔ ∃ a, x = .ok a ∧ f a = b := by
  cases x <;> simp [Except.map]

/-- The decoder of a request accepts the slots of the well-formed requests and no others. -/
theorem decodeFrameSlots_eq_ok_iff {l : List Level} (hlen : l.length = 66) {i : Instr} :
    decodeFrameSlots l = .ok i ↔ ∃ d0 d1 d2 d3 cs,
      i = .sendFrame d0 d1 d2 d3 cs ∧ l = requestSlots d0 d1 d2 d3 cs ∧ WellFormed i = true := by
  simp only [decodeFrameSlots, except_bind_eq_ok_iff, eq_requestSlots_iff, hlen, true_and]
  constructor
  · rintro ⟨h, hh, d0, h0, d1, h1, d2, h2, d3, h3, cs, hcs, hcheck⟩
    split_ifs at hcheck with hhead hwf
    cases hcheck
    rw [not_not.1 hhead] at hh
    exact ⟨d0, d1, d2, d3, cs, rfl, ⟨hh, h0, h1, h2, h3, hcs⟩, hwf⟩
  · rintro ⟨d0, d1, d2, d3, cs, rfl, ⟨hh, h0, h1, h2, h3, hcs⟩, hwf⟩
    exact ⟨_, hh, _, h0, _, h1, _, h2, _, h3, _, hcs, by simp [hwf]⟩

/-- The slot decoder and the encoder are inverse on the well-formed instructions (R60, R62). -/
theorem decodeSlots_eq_ok_iff {l : List Level} {i : Instr} :
    decodeSlots l = .ok i ↔ encode i = .slots l ∧ WellFormed i = true := by
  constructor
  · intro h
    unfold decodeSlots at h
    split_ifs at h with h11 h66
    · obtain ⟨v, hv, rfl⟩ := except_map_eq_ok_iff.1 h
      rw [encode, decodeByteSlots_eq_ok_iff.1 hv]
      exact ⟨rfl, rfl⟩
    · obtain ⟨d0, d1, d2, d3, cs, rfl, rfl, hwf⟩ := (decodeFrameSlots_eq_ok_iff h66).1 h
      exact ⟨rfl, hwf⟩
  · rintro ⟨henc, hwf⟩
    cases i with
    | sendByte v =>
      cases henc
      rw [decodeSlots, if_pos (byteSlots_length v), decodeByteSlots_eq_ok_iff.2 rfl]
      rfl
    | sendFrame d0 d1 d2 d3 cs =>
      cases henc
      have hlen := requestSlots_length d0 d1 d2 d3 cs
      rw [decodeSlots, if_neg (by rw [hlen]; decide), if_pos hlen]
      exact (decodeFrameSlots_eq_ok_iff hlen).2 ⟨d0, d1, d2, d3, cs, rfl, rfl, hwf⟩
    | _ => cases henc

end Sys2Proof.Machine

namespace Sys2Proof.Safety

open Sys2Proof.Machine

/-! ### The obligations of 30_encoding.md -/

/-- Settles O43: a command word by the row of its opcode, a run of slots by `decodeSlots_eq_ok_iff`. -/
theorem decodeEncodeRoundTrip : Obligations.DecodeEncodeRoundTrip := by
  intro i hwf
  cases i with
  | setData idx val => exact congrArg Except.ok (by simpa using decodeCmd_of_setData (cmdOp_fields 0x1#4 idx val))
  | setMod idx val => exact congrArg Except.ok (by simpa using decodeCmd_of_setMod (cmdOp_fields 0x2#4 idx val))
  | comm idx val => exact congrArg Except.ok (by simpa using decodeCmd_of_comm (cmdOp_fields 0x3#4 idx val))
  | reserved0 low => exact congrArg Except.ok (by simpa using decodeCmd_of_reserved0 (cmdOp_append_low 0x0#4 low))
  | reserved47 op low => exact congrArg Except.ok (decodeCmd_reserved47_word op low)
  | reserved8F op low => exact congrArg Except.ok (decodeCmd_reserved8F_word op low)
  | sendByte v => exact decodeSlots_eq_ok_iff.2 ⟨rfl, hwf⟩
  | sendFrame d0 d1 d2 d3 cs => exact decodeSlots_eq_ok_iff.2 ⟨rfl, hwf⟩
  | recvByte => rfl

/-- Settles O44: row by row, the operands are the bits of the word that the row does not fix. -/
theorem encodeDecodeCommandWords : Obligations.EncodeDecodeCommandWords :=
  encode_decodeCmd

/-- Settles O45: the decoder of a byte and that of a request accept the slots of their results alone. -/
theorem encodeDecodeSlots : Obligations.EncodeDecodeSlots :=
  fun _ _ h => decodeSlots_eq_ok_iff.1 h

/-- Settles O46: the masked bits fix the opcode as far as the row does; conversely the word is the encoding of what it
decodes to, and that has the fixed bits of its row. -/
theorem opcodeTableRows : Obligations.OpcodeTableRows := by
  intro w
  refine ⟨⟨fun h => ?_, fun ⟨idx, val, h⟩ => masked_of_decodeCmd h rfl (Laws.MatchesTable.setData idx val)⟩,
    ⟨fun h => ?_, fun ⟨idx, val, h⟩ => masked_of_decodeCmd h rfl (Laws.MatchesTable.setMod idx val)⟩,
    ⟨fun h => ?_, fun ⟨idx, val, h⟩ => masked_of_decodeCmd h rfl (Laws.MatchesTable.comm idx val)⟩,
    ⟨fun h => ?_, fun ⟨low, h⟩ => masked_of_decodeCmd h rfl (Laws.MatchesTable.reserved0 low)⟩,
    ⟨fun h => ?_, fun ⟨op, low, h⟩ => masked_of_decodeCmd h rfl (Laws.MatchesTable.reserved47 op low)⟩,
    ⟨fun h => ?_, fun ⟨op, low, h⟩ => masked_of_decodeCmd h rfl (Laws.MatchesTable.reserved8F op low)⟩⟩
  · exact ⟨_, _, decodeCmd_of_setData (cmdOp_eq_of_masked h)⟩
  · exact ⟨_, _, decodeCmd_of_setMod (cmdOp_eq_of_masked h)⟩
  · exact ⟨_, _, decodeCmd_of_comm (cmdOp_eq_of_masked h)⟩
  · exact ⟨_, decodeCmd_of_reserved0 (cmdOp_eq_of_masked h)⟩
  · obtain ⟨h4, h8⟩ := opcode_of_masked_reserved47 _ (cmdOp_and_eq_of_masked h)
    exact ⟨_, _, decodeCmd_of_reserved47 h4 h8⟩
  · exact ⟨_, _, decodeCmd_of_reserved8F (opcode_of_masked_reserved8F _ (cmdOp_and_eq_of_masked h))⟩

/-- Settles O47: a request is the slots of its six bytes one after the other. -/
theorem requestSlotPositions : Obligations.RequestSlotPositions := by
  intro W d0 d1 d2 d3 m
  refine ⟨requestSlots_length .., fun j _ => ?_⟩
  rw [frameSlots, requestSlots_eq_flatMap, flatMap_byteSlots_getElem?]
  rfl

/-- Settles O48: the decoder computes each of the spec's words. -/
theorem wordsOfTheSpecDecode : Obligations.WordsOfTheSpecDecode := by
  unfold Obligations.WordsOfTheSpecDecode
  decide

end Sys2Proof.Safety

/-! PROOFS. What an edge of each internal operation writes and what it leaves; the slots of a byte and of a request, driven
one after the other by repeated edges. -/

namespace Sys2Proof.Machine

/-! ### The frame of the internal operations (R100, R107, R120) -/

/-- Within a byte only the slot index, the level and the timer change. -/
theorem slotEdge_writes (p : Params) (v : Byte) (r : Regs) :
    ∃ si l n, slotEdge p v r = { r with si := si, pinO := l, tmr := n } := by
  obtain ⟨-, e⟩ | ⟨-, e⟩ := slotEdge_cases p v r
  · exact ⟨r.si, r.pinO, r.tmr - 1, e⟩
  · exact ⟨_, _, _, e⟩

/-- SENDBYTE writes the slot counters but not `bi`, and the pin. -/
theorem sendByteEdge_writes (p : Params) (v : Byte) (r : Regs) :
    ∃ ph si oe l n, sendByteEdge p v r = { r with ph := ph, si := si, pinOe := oe, pinO := l, tmr := n } := by
  obtain ⟨-, e⟩ | ⟨-, e⟩ := sendByteEdge_cases p v r
  · obtain ⟨si, l, n, eslot⟩ := slotEdge_writes p v r
    exact ⟨r.ph, si, r.pinOe, l, n, e.trans eslot⟩
  · exact ⟨_, _, _, _, _, e⟩

/-- SENDFRAME writes the slot counters and the pin. -/
theorem sendFrameEdge_writes (p : Params) (bytes : BitVec 3 → Byte) (r : Regs) :
    ∃ ph bi si oe l n, sendFrameEdge p bytes r =
      { r with ph := ph, bi := bi, si := si, pinOe := oe, pinO := l, tmr := n } := by
  obtain ⟨-, e⟩ | ⟨-, -, -, e⟩ | ⟨-, -, e⟩ := sendFrameEdge_cases p bytes r
  · obtain ⟨si, l, n, eslot⟩ := slotEdge_writes p (bytes r.bi) r
    exact ⟨r.ph, r.bi, si, r.pinOe, l, n, e.trans eslot⟩
  · exact ⟨r.ph, _, _, r.pinOe, _, _, e⟩
  · exact ⟨_, _, _, _, _, _, e⟩

/-- What a cycle of the settle delay or of the measurements leaves: the registers the host writes, `bi` and the pin; and
it does not enter SEND. -/
structure LeavesWire (r r' : Regs) : Prop where
  data : r'.data = r.data
  mod : r'.mod = r.mod
  bi : r'.bi = r.bi
  pinOe : r'.pinOe = r.pinOe
  pinO : r'.pinO = r.pinO
  ph : r'.ph ≠ .send

theorem leavesWire_countDown {r : Regs} (h : r.ph ≠ .send) : LeavesWire r (countDown r) :=
  ⟨rfl, rfl, rfl, rfl, rfl, h⟩

theorem leavesWire_settleEdge {r : Regs} (h : r.ph ≠ .send) : LeavesWire r (settleEdge r) := by
  obtain ⟨-, e⟩ | ⟨-, e⟩ := settleEdge_cases r <;> rw [e]
  · exact leavesWire_countDown h
  · exact ⟨rfl, rfl, rfl, rfl, rfl, by simp⟩

theorem leavesWire_endBit (p : Params) {r : Regs} (h : r.ph ≠ .send) : LeavesWire r (endBit p r) := by
  obtain ⟨-, e⟩ | ⟨-, e⟩ := endBit_cases p r <;> rw [e]
  · exact ⟨rfl, rfl, rfl, rfl, rfl, h⟩
  · exact ⟨rfl, rfl, rfl, rfl, rfl, by simp⟩

theorem leavesWire_measureEdge (p : Params) (pin : Level) {r : Regs} (h : r.ph ≠ .send) :
    LeavesWire r (measureEdge p pin r) := by
  obtain ⟨-, e⟩ | ⟨-, -, -, e⟩ | ⟨-, -, e⟩ := measureEdge_cases p pin r <;> rw [e]
  · exact leavesWire_countDown h
  · exact ⟨rfl, rfl, rfl, rfl, rfl, h⟩
  · exact leavesWire_endBit p h

/-- Everything a cycle of RECVBYTE can do to the wire: release it, from IDLE or SEND, or leave it alone. -/
theorem recvByteEdge_wire (p : Params) (pin : Level) (r : Regs) :
    ((r.ph = .idle ∨ r.ph = .send) ∧ recvByteEdge p pin r = startReceive p r) ∨
    ((r.ph = .settle ∨ r.ph = .meas) ∧ LeavesWire r (recvByteEdge p pin r)) := by
  cases hph : r.ph with
  | idle => exact .inl ⟨.inl rfl, recvByteEdge_start p pin r (.inl hph)⟩
  | send => exact .inl ⟨.inr rfl, recvByteEdge_start p pin r (.inr hph)⟩
  | settle => exact .inr ⟨.inl rfl, recvByteEdge_settle p pin r hph ▸ leavesWire_settleEdge (by simp [hph])⟩
  | meas => exact .inr ⟨.inr rfl, recvByteEdge_meas p pin r hph ▸ leavesWire_measureEdge p pin (by simp [hph])⟩

/-! ### What runs in SEND (R107, R183) -/

/-- Everything that can run in SEND, and when. -/
theorem fetchSend_cases (p : Params) (r : Regs) (hph : r.ph = .send) :
    ((0 < r.tmr ∨ r.si.toNat < 10) ∧ fetchSend p r = .sendByte (txByte p r r.bi)) ∨
    (r.tmr = 0 ∧ 10 ≤ r.si.toNat ∧ r.bi.toNat < 5 ∧
      fetchSend p r = .sendFrame r.data[0] r.data[1] r.data[2] r.data[3] (requestChecksum p r)) ∨
    (r.tmr = 0 ∧ 10 ≤ r.si.toNat ∧ 5 ≤ r.bi.toNat ∧ fetchSend p r = .recvByte) := by
  unfold fetchSend
  cases hin : byteInProgress r with
  | true => exact .inl ⟨((byteInProgress_iff r).1 hin).2, if_pos rfl⟩
  | false =>
    obtain ⟨ht, hs⟩ := slotsEnded_of_not_byteInProgress hph hin
    rw [if_neg (by decide)]
    by_cases hb : r.bi.toNat < 5
    · exact .inr (.inl ⟨ht, hs, hb, if_pos hb⟩)
    · exact .inr (.inr ⟨ht, hs, Nat.le_of_not_lt hb, if_neg hb⟩)

/-- With `rst = 0` a step is `exec` of the instruction fetched, with the environment one edge further. -/
theorem step_of_fetch {s : State} {i : Instr} (hrst : (inputNow s).rst = false) (hf : fetch s = some i) :
    ∃ t, exec i s = .next t ∧ step s = .next { t with env := envAfter s } :=
  ⟨_, exec_eq i s, by simp [step_eq, hrst, hf]⟩

/-! ### Slots of `T_BIT` edges, one after the other (R101, R105) -/

@[simp] theorem byteInProgress_clearRsp (r : Regs) : byteInProgress (clearRsp r) = byteInProgress r := rfl

/-- The registers in edge `n` of slot `j` of the byte `v`, byte `bi` of those sent since `r`: the slot's level is driven,
and nothing is left of a response shown in `r`. -/
def inSlot (p : Params) (r : Regs) (v : Byte) (bi : BitVec 3) (j n : Nat) : Regs :=
  { clearRsp r with
    ph := .send, bi := bi, si := BitVec.ofNat 4 j, pinOe := true, pinO := slotLevel v j, tmr := p.tBit - 1 - n }

section InSlot

variable {p : Params} {r : Regs} {v : Byte} {bi : BitVec 3} {j n : Nat}

@[simp] theorem inSlot_tmr : (inSlot p r v bi j n).tmr = p.tBit - 1 - n := rfl

theorem inSlot_si_toNat (hj : j ≤ 10) : (inSlot p r v bi j n).si.toNat = j :=
  Nat.mod_eq_of_lt (by omega)

theorem byteInProgress_inSlot (hj : j ≤ 10) :
    byteInProgress (inSlot p r v bi j n) = true ↔ n < p.tBit - 1 ∨ j < 10 := by
  rw [byteInProgress_iff, inSlot_si_toNat hj, inSlot_tmr, Nat.sub_pos_iff_lt]
  exact and_iff_right rfl

theorem sendByteEdge_inSlot (hj : j ≤ 10) (h : n < p.tBit - 1 ∨ j < 10) :
    sendByteEdge p v (inSlot p r v bi j n) = slotEdge p v (inSlot p r v bi j n) :=
  if_pos ((byteInProgress_inSlot hj).2 h)

theorem sendFrameEdge_inSlot {bytes : BitVec 3 → Byte} (hj : j ≤ 10) (h : n < p.tBit - 1 ∨ j < 10) :
    sendFrameEdge p bytes (inSlot p r (bytes bi) bi j n) = slotEdge p (bytes bi) (inSlot p r (bytes bi) bi j n) :=
  if_pos ((byteInProgress_inSlot hj).2 h)

/-- The slot goes on. -/
theorem slotEdge_inSlot_wait (hn : n + 1 < p.tBit) :
    slotEdge p v (inSlot p r v bi j n) = inSlot p r v bi j (n + 1) :=
  slotEdge_of_waiting p v _ (by rw [inSlot_tmr]; omega)

/-- The last edge of a slot but the last of its byte: the next slot begins. -/
theorem slotEdge_inSlot_last (hj : j < 10) :
    slotEdge p v (inSlot p r v bi j (p.tBit - 1)) = inSlot p r v bi (j + 1) 0 := by
  rw [slotEdge, if_neg (by simp), inSlot_si_toNat hj.le]
  simp [inSlot, wait, BitVec.ofNat_add]

/-- The last edge of a byte: the start slot of the next one begins, whatever byte it is. -/
theorem nextByte_inSlot (v' : Byte) (m : Nat) : nextByte p (inSlot p r v bi j m) = inSlot p r v' (bi + 1) 0 0 := rfl

theorem startByte_eq_inSlot (v : Byte) : startByte p (clearRsp r) = inSlot p r v r.bi 0 0 := rfl

theorem startFrame_eq_inSlot (v : Byte) : startFrame p (clearRsp r) = inSlot p r v 0 0 0 := rfl

end InSlot

/-- A run that enters slot 0 at its first edge, stays in a slot for `T` edges, and goes from each slot to the next is in
edge `n` of slot `j` after `1 + j * T + n` edges. -/
theorem run_eq_of_slots {α : Type} {T N : Nat} (run : Nat → α) (S : Nat → Nat → α) (hstart : run 1 = S 0 0)
    (hwait : ∀ j n, j < N → n + 1 < T → run (1 + j * T + n) = S j n → run (1 + j * T + n + 1) = S j (n + 1))
    (hnext : ∀ j, j + 1 < N → run (1 + j * T + (T - 1)) = S j (T - 1) → run (1 + j * T + (T - 1) + 1) = S (j + 1) 0)
    (j n : Nat) (hj : j < N) (hn : n < T) : run (1 + j * T + n) = S j n := by
  induction j generalizing n with
  | zero =>
    induction n with
    | zero => simpa using hstart
    | succ n ihn => exact hwait 0 n hj hn (ihn (by omega))
  | succ j ihj =>
    induction n with
    | zero =>
      have hlast := hnext j hj (ihj (T - 1) (by omega) (by omega))
      rwa [show 1 + j * T + (T - 1) + 1 = 1 + (j + 1) * T + 0 by rw [Nat.succ_mul]; omega] at hlast
    | succ n ihn => exact hwait (j + 1) n hj hn (ihn (by omega))

/-- Repeated edges of SENDBYTE from no byte in progress: slot `j` of `v` for its `T_BIT` edges (R100 to R102). -/
theorem iterate_sendByteEdge (p : Params) (v : Byte) {r : Regs} (h : byteInProgress r = false) {j n : Nat} (hj : j < 11)
    (hn : n < p.tBit) :
    (fun r => sendByteEdge p v (clearRsp r))^[1 + j * p.tBit + n] r = inSlot p r v r.bi j n := by
  refine run_eq_of_slots (N := 11) (fun k => (fun r => sendByteEdge p v (clearRsp r))^[k] r) (inSlot p r v r.bi)
    ?_ (fun j n hj hn ih => ?_) (fun j hj ih => ?_) j n hj hn
  · exact (if_neg (by simp [h])).trans (startByte_eq_inSlot v)
  · rw [Function.iterate_succ_apply', ih]
    exact (sendByteEdge_inSlot (by omega) (.inl (by omega))).trans (slotEdge_inSlot_wait hn)
  · rw [Function.iterate_succ_apply', ih]
    exact (sendByteEdge_inSlot (by omega) (.inr (by omega))).trans (slotEdge_inSlot_last (by omega))

/-- The registers in edge `n` of slot `j` of the request `bytes`: slot `j mod 11` of byte `j / 11` (R62). -/
def inRequestSlot (p : Params) (bytes : BitVec 3 → Byte) (r : Regs) (j n : Nat) : Regs :=
  inSlot p r (bytes (BitVec.ofNat 3 (j / 11))) (BitVec.ofNat 3 (j / 11)) (j % 11) n

/-- The last edge of a slot of a request but the last: the next slot of the byte, or the start slot of the next byte. -/
theorem sendFrameEdge_inRequestSlot_last {p : Params} {bytes : BitVec 3 → Byte} {r : Regs} {j : Nat} (hj : j + 1 < 66) :
    sendFrameEdge p bytes (inRequestSlot p bytes r j (p.tBit - 1)) = inRequestSlot p bytes r (j + 1) 0 := by
  unfold inRequestSlot
  by_cases hs : j % 11 < 10
  · rw [sendFrameEdge_inSlot hs.le (.inr hs), slotEdge_inSlot_last hs, show (j + 1) / 11 = j / 11 by omega,
      show (j + 1) % 11 = j % 11 + 1 by omega]
  · have hend : ¬ (p.tBit - 1 < p.tBit - 1 ∨ j % 11 < 10) := by omega
    have hbyte : (BitVec.ofNat 3 (j / 11)).toNat < 5 := by rw [BitVec.toNat_ofNat]; omega
    rw [sendFrameEdge, if_neg (mt (byteInProgress_inSlot (by omega)).1 hend), if_pos ⟨rfl, hbyte⟩,
      show (j + 1) / 11 = j / 11 + 1 by omega, show (j + 1) % 11 = 0 by omega, BitVec.ofNat_add]
    exact nextByte_inSlot _ _

/-- Repeated edges of SENDFRAME from outside SEND: slot `j` of the request for its `T_BIT` edges (R105, R107). -/
theorem iterate_sendFrameEdge (p : Params) (bytes : BitVec 3 → Byte) {r : Regs} (h : r.ph ≠ .send) {j n : Nat}
    (hj : j < 66) (hn : n < p.tBit) :
    (fun r => sendFrameEdge p bytes (clearRsp r))^[1 + j * p.tBit + n] r = inRequestSlot p bytes r j n := by
  refine run_eq_of_slots (N := 66) (fun k => (fun r => sendFrameEdge p bytes (clearRsp r))^[k] r)
    (inRequestSlot p bytes r) ?_ (fun j n hj hn ih => ?_) (fun j hj ih => ?_) j n hj hn
  · show sendFrameEdge p bytes (clearRsp r) = _
    rw [sendFrameEdge, if_neg (by simp [byteInProgress_iff, h]), if_neg (by simp [h])]
    exact startFrame_eq_inSlot _
  · rw [Function.iterate_succ_apply', ih]
    exact (sendFrameEdge_inSlot (by omega) (.inl (by omega))).trans (slotEdge_inSlot_wait hn)
  · rw [Function.iterate_succ_apply', ih]
    exact sendFrameEdge_inRequestSlot_last hj

/-- Byte `k` of a request, in the order sent (R62, R107). -/
theorem requestBytes_getElem? (d0 d1 d2 d3 cs : Byte) {k : Nat} (hk : k < 6) :
    [header, d0, d1, d2, d3, cs][k]? = some (requestByte d0 d1 d2 d3 cs (BitVec.ofNat 3 k)) := by
  interval_cases k <;> rfl

end Sys2Proof.Machine

namespace Sys2Proof.Safety

open Sys2Proof.Machine

/-- Repeated edges of an instruction that only updates the registers, by a function of them alone. -/
theorem execTimes_eq_iterate {i : Instr} {f : Regs → Regs} (h : ∀ s, exec i s = .next (s.onRegs f)) (s : State) (n : Nat) :
    execTimes i s n = .next (s.onRegs f^[n]) := by
  induction n with
  | zero => rfl
  | succ n ih =>
    rw [execTimes, ih]
    show exec i (s.onRegs f^[n]) = _
    rw [h, Function.iterate_succ']
    rfl

/-! ### The obligations of 40_frame_codec_send.md -/

/-- Settles O14: after `1 + j * T_BIT + n` edges the registers are those in edge `n` of slot `j`. -/
theorem sendByteDrivesElevenSlots : Obligations.SendByteDrivesElevenSlots := by
  intro v s hidle j n hj hn
  have hslot := iterate_sendByteEdge params v hidle hj hn
  have hover : byteInProgress (inSlot params s.toRegs v s.bi j n) = false ↔ j = 10 ∧ n = params.tBit - 1 := by
    rw [← Bool.not_eq_true, byteInProgress_inSlot (by omega)]
    omega
  refine ⟨_, execTimes_eq_iterate (fun _ => rfl) s _, ?_⟩
  simp only [onRegs_toRegs, onRegs_env, hslot, hover, inSlot_si_toNat (Nat.le_of_lt_succ hj), byteSlots_getElem? v j hj]
  simp [inSlot]

/-- Settles O15: after `1 + j * T_BIT + n` edges the registers are those in edge `n` of slot `j mod 11` of byte
`j / 11`. -/
theorem sendFrameDrivesSixtySixSlots : Obligations.SendFrameDrivesSixtySixSlots := by
  intro d0 d1 d2 d3 cs s hph j n hj hn
  have hslot := iterate_sendFrameEdge params (requestByte d0 d1 d2 d3 cs) hph hj hn
  have hlevel : (requestSlots d0 d1 d2 d3 cs)[j]? =
      some (slotLevel (requestByte d0 d1 d2 d3 cs (BitVec.ofNat 3 (j / 11))) (j % 11)) := by
    rw [requestSlots_eq_flatMap, flatMap_byteSlots_getElem?, requestBytes_getElem? _ _ _ _ _ (by omega)]
    rfl
  have hbyte : (BitVec.ofNat 3 (j / 11)).toNat = j / 11 := Nat.mod_eq_of_lt (by omega)
  refine ⟨_, execTimes_eq_iterate (fun _ => rfl) s _, ?_⟩
  simp only [onRegs_toRegs, onRegs_env, hslot, inRequestSlot, inSlot_si_toNat (show j % 11 ≤ 10 by omega), hlevel]
  simp [inSlot, hbyte]

/-- Settles O19: what each operation writes, from the registers cleared by R181. -/
theorem internalOperationFrame : Obligations.InternalOperationFrame := by
  intro i s t hexec
  rw [exec_eq] at hexec
  cases hexec
  refine ⟨?_, ?_, ?_⟩
  · rintro (⟨v, rfl⟩ | ⟨d0, d1, d2, d3, cs, rfl⟩)
    · obtain ⟨ph, si, oe, l, n, e⟩ := sendByteEdge_writes params v (clearRsp s.toRegs)
      simp [effect, e]
    · obtain ⟨ph, bi, si, oe, l, n, e⟩ :=
        sendFrameEdge_writes params (requestByte d0 d1 d2 d3 cs) (clearRsp s.toRegs)
      simp [effect, e]
  · rintro ⟨v, rfl⟩
    obtain ⟨ph, si, oe, l, n, e⟩ := sendByteEdge_writes params v (clearRsp s.toRegs)
    simp [effect, e]
  · rintro rfl
    obtain ⟨hph, e⟩ | ⟨-, hwire⟩ := recvByteEdge_wire params (inputNow s).pinI (clearRsp s.toRegs)
    · have hnot : ¬ (s.ph = .settle ∨ s.ph = .meas) := by
        rw [clearRsp_ph] at hph
        rcases hph with hph | hph <;> simp [hph]
      simp [effect, e, startReceive, hnot]
    · exact ⟨hwire.data, hwire.mod, rfl, hwire.ph, hwire.pinOe.symm.trans, fun _ => ⟨hwire.bi, hwire.pinOe, hwire.pinO⟩⟩

/-- Settles O4: in each phase the step is `exec` of what `fetch` names. -/
theorem stepRunsInternalOperation : Obligations.StepRunsInternalOperation := by
  intro s hrst hbusy
  obtain ⟨hph, -⟩ | ⟨hph, -⟩ | ⟨hph, hf⟩ | ⟨hph, hf⟩ := fetch_cases s
  · exact absurd hph hbusy
  · exact absurd hph hbusy
  · obtain ⟨t, hexec, hstep⟩ := step_of_fetch hrst hf
    refine ⟨_, t, hexec, hstep, by simp [hph], ?_⟩
    obtain ⟨hin, e⟩ | ⟨ht, hs, hb, e⟩ | ⟨ht, hs, hb, e⟩ := fetchSend_cases params s.toRegs hph <;> rw [e]
    · exact ⟨fun _ _ => rfl, fun _ ht hs => by omega, fun _ ht hs => by omega⟩
    · exact ⟨fun _ hin => by omega, fun _ _ _ _ => rfl, fun _ _ _ hb' => by omega⟩
    · exact ⟨fun _ hin => by omega, fun _ _ _ hb' => by omega, fun _ _ _ _ => rfl⟩
  · obtain ⟨t, hexec, hstep⟩ := step_of_fetch hrst hf
    have hnot : s.ph ≠ .send := by rcases hph with hph | hph <;> simp [hph]
    exact ⟨_, t, hexec, hstep, fun _ => rfl, by simp [hnot]⟩

end Sys2Proof.Safety

/-! PROOFS. The decoder as a function of the line: how many polls read HIGH, which bit that is, which byte. The receiving
registers edge by edge: the settle delay, and eight measurements that end with the byte the line decodes to. -/

namespace Sys2Proof.Safety

open Sys2Proof.Machine

/-! ### The HIGH polls of one measurement (R126, R188) -/

theorem le_highPolls_iff (tick : Nat) (L : Nat → Level) (m n t : Nat) :
    m ≤ highPolls tick L n t ↔ m ≤ n ∧ ∀ j, j < m → L (t + j * tick) = HIGH := by
  induction n generalizing m t with
  | zero => cases m <;> simp [highPolls]
  | succ n ih =>
    cases m with
    | zero => simp
    | succ m =>
      have hsplit : (∀ j, j < m + 1 → L (t + j * tick) = HIGH) ↔
          L t = HIGH ∧ ∀ j, j < m → L (t + tick + j * tick) = HIGH := by
        simp only [Nat.forall_lt_succ_left, Nat.zero_mul, Nat.add_zero, Nat.succ_mul, Nat.add_right_comm, ← Nat.add_assoc]
      rw [hsplit]
      by_cases hL : L t = HIGH
      · simp [highPolls, hL, ih]
      · simp [highPolls, hL]

section Line

variable {p : Params} {L : Nat → Level} {k q : Nat}

theorem le_measPolls_iff :
    q ≤ measPolls p L k ↔ q ≤ p.nTicks ∧ ∀ j, j < q → L (measStart p L k + j * p.tTick) = HIGH :=
  le_highPolls_iff p.tTick L q p.nTicks (measStart p L k)

theorem measPolls_le : measPolls p L k ≤ p.nTicks := (le_measPolls_iff.1 le_rfl).1

/-- A measurement goes on past `q` HIGH polls exactly when the bound is not reached and the next poll is HIGH (R123). -/
theorem lt_measPolls_iff (hq : q ≤ measPolls p L k) :
    q < measPolls p L k ↔ q < p.nTicks ∧ L (measStart p L k + q * p.tTick) = HIGH := by
  obtain ⟨-, hhigh⟩ := le_measPolls_iff.1 hq
  rw [← Nat.succ_le_iff, le_measPolls_iff, Nat.forall_lt_succ_right]
  exact and_congr_right fun _ => and_iff_right hhigh

theorem measPolls_of_low (h : L (measStart p L k) = LOW) : measPolls p L k = 0 :=
  Nat.le_zero.1 <| Nat.le_of_not_lt fun hpos => by
    obtain ⟨-, hhigh⟩ := (lt_measPolls_iff (Nat.zero_le _)).1 hpos
    rw [Nat.zero_mul, Nat.add_zero, h] at hhigh
    cases hhigh

theorem measPolls_of_high (h : ∀ j, j < p.nTicks → L (measStart p L k + j * p.tTick) = HIGH) :
    measPolls p L k = p.nTicks :=
  measPolls_le.antisymm (le_measPolls_iff.2 ⟨le_rfl, h⟩)

/-! ### Where the measurements start (R188, R189) -/

theorem measStart_succ (p : Params) (L : Nat → Level) (k : Nat) :
    measStart p L (k + 1) = measStart p L k + measPolls p L k * p.tTick + 1 := rfl

theorem measStart_strictMono (p : Params) (L : Nat → Level) : StrictMono (measStart p L) :=
  strictMono_nat_of_lt_succ fun k => by rw [measStart_succ]; omega

/-- Measurements of `q` HIGH polls each take `q * T_TICK + 1` cycles each. -/
theorem measStart_of_measPolls_eq {n : Nat} (h : ∀ k, k < n → measPolls p L k = q) :
    measStart p L n = n * (q * p.tTick + 1) := by
  induction n with
  | zero => rw [Nat.zero_mul]; rfl
  | succ n ih =>
    rw [measStart_succ, ih fun k hk => h k (by omega), h n (by omega), Nat.succ_mul]
    rfl

/-! ### The decoded bit (R124) -/

theorem measBit_eq_decodeBit (p : Params) (L : Nat → Level) (k : Nat) :
    measBit p L k = decodeBit p.thresh (measPolls p L k * p.accStep) := rfl

theorem decodeBit_polls_iff {n : Nat} (hstep : 0 < p.accStep) :
    decodeBit p.thresh (n * p.accStep) = true ↔ leastPolls p ≤ n := by
  rw [decodeBit_iff, leastPolls, Nat.succ_le_iff, Nat.div_lt_iff_lt_mul hstep]

theorem measBit_iff (hstep : 0 < p.accStep) : measBit p L k = true ↔ leastPolls p ≤ measPolls p L k := by
  rw [measBit_eq_decodeBit, decodeBit_polls_iff hstep]

theorem measBit_of_low (h : L (measStart p L k) = LOW) : measBit p L k = false := by
  rw [measBit_eq_decodeBit, measPolls_of_low h, Nat.zero_mul]
  rfl

/-! ### The bits decoded so far (R125) -/

/-- The byte of the first `k` bits, the others 0. -/
def bitsBefore (p : Params) (L : Nat → Level) (k : Nat) : Byte := byteOfBits ((List.range k).map (measBit p L))

theorem bitsBefore_getLsbD {j : Nat} (hj : j < 8) :
    (bitsBefore p L k).getLsbD j = if j < k then measBit p L j else false := by
  rw [bitsBefore, byteOfBits_getLsbD _ hj]
  by_cases h : j < k <;> simp [h]

theorem setBit_bitsBefore (hk : k < 8) : setBit (bitsBefore p L k) k (measBit p L k) = bitsBefore p L (k + 1) := by
  refine BitVec.eq_of_getLsbD_eq fun j hj => ?_
  rw [setBit_getLsbD _ _ _ _ hk, bitsBefore_getLsbD hj, bitsBefore_getLsbD hj]
  obtain h | rfl | h := Nat.lt_trichotomy j k
  · rw [if_neg (by omega), if_pos h, if_pos (by omega)]
  · rw [if_pos rfl, if_pos (by omega)]
  · rw [if_neg (by omega), if_neg (by omega), if_neg (by omega)]

theorem responseByte_eq_iff {x : Byte} :
    responseByte p L = x ↔ ∀ j, j < 8 → measBit p L j = x.getLsbD j := by
  have hbit : ∀ j, j < 8 → (responseByte p L).getLsbD j = measBit p L j := fun j hj =>
    (bitsBefore_getLsbD hj).trans (if_pos hj)
  constructor
  · rintro rfl j hj
    exact (hbit j hj).symm
  · exact fun h => BitVec.eq_of_getLsbD_eq fun j hj => (hbit j hj).trans (h j hj)

end Line

/-! ### The measurements, edge by edge (R185, R188) -/

/-- The registers in measurement `k` after `q` HIGH polls, with `m` cycles to wait for the next poll. -/
def inMeasurement (p : Params) (L : Nat → Level) (r : Regs) (k q m : Nat) : Regs :=
  { clearRsp r with
    ph := .meas, si := BitVec.ofNat 4 k, pcnt := q, acc := q * p.accStep, tmr := m, rxsh := bitsBefore p L k }

/-- The registers with the response to the line `L` shown (R185, the eighth bit). -/
def answered (p : Params) (L : Nat → Level) (r : Regs) : Regs :=
  respond .ok (responseByte p L) { r with ph := .idle, si := 0, pcnt := 0, acc := 0, tmr := 0, rxsh := 0 }

/-- `r'` are the registers `c` cycles after the first poll of a measurement begun with the registers `r`. -/
def Measuring (p : Params) (L : Nat → Level) (r : Regs) (c : Nat) (r' : Regs) : Prop :=
  ∃ k q m, k < 8 ∧ q ≤ measPolls p L k ∧ c + m = measStart p L k + q * p.tTick ∧ r' = inMeasurement p L r k q m

section Measuring

variable {p : Params} {L : Nat → Level} {r r' : Regs} {k q m c : Nat}

theorem Measuring.ph (h : Measuring p L r c r') : r'.ph = .meas := by
  obtain ⟨k, q, m, -, -, -, rfl⟩ := h
  rfl

theorem Measuring.lt_measStart (h : Measuring p L r c r') : c < measStart p L 8 := by
  obtain ⟨k, q, m, hk, hq, hc, -⟩ := h
  have hend : measStart p L (k + 1) ≤ measStart p L 8 := (measStart_strictMono p L).monotone hk
  have hpolls : q * p.tTick ≤ measPolls p L k * p.tTick := Nat.mul_le_mul_right _ hq
  rw [measStart_succ] at hend
  omega

theorem measuring_start : Measuring p L r 0 (inMeasurement p L r 0 0 0) :=
  ⟨0, 0, 0, by omega, Nat.zero_le _, by rw [Nat.zero_mul]; rfl, rfl⟩

@[simp] theorem clearRsp_inMeasurement : clearRsp (inMeasurement p L r k q m) = inMeasurement p L r k q m := rfl

theorem inMeasurement_si_toNat (hk : k < 8) : (inMeasurement p L r k q m).si.toNat = k :=
  Nat.mod_eq_of_lt (by omega)

/-- The bit that ends after the last HIGH poll of measurement `k` is `b_k`. -/
theorem withDecodedBit_inMeasurement (hk : k < 8) :
    withDecodedBit p (inMeasurement p L r k (measPolls p L k) m) = bitsBefore p L (k + 1) := by
  rw [withDecodedBit, inMeasurement_si_toNat hk]
  exact setBit_bitsBefore hk

/-- The end of measurement `k`: the next one starts, or the eighth ends the response. -/
theorem endBit_inMeasurement (hk : k < 8) :
    (k < 7 ∧ endBit p (inMeasurement p L r k (measPolls p L k) m) = inMeasurement p L r (k + 1) 0 0) ∨
    (k = 7 ∧ endBit p (inMeasurement p L r k (measPolls p L k) m) = answered p L r) := by
  obtain ⟨hsi, e⟩ | ⟨hsi, e⟩ := endBit_cases p (inMeasurement p L r k (measPolls p L k) m) <;>
    rw [inMeasurement_si_toNat hk] at hsi <;> rw [e, withDecodedBit_inMeasurement hk]
  · exact .inl ⟨hsi, by simp [inMeasurement, BitVec.ofNat_add]⟩
  · obtain rfl : k = 7 := by omega
    exact .inr ⟨rfl, rfl⟩

theorem measureEdge_inMeasurement_wait (pin : Level) :
    measureEdge p pin (inMeasurement p L r k q (m + 1)) = inMeasurement p L r k q m :=
  measureEdge_of_waiting p pin _ (Nat.succ_pos m)

theorem measureEdge_inMeasurement_high (hq : q < measPolls p L k) :
    measureEdge p (L (measStart p L k + q * p.tTick)) (inMeasurement p L r k q 0) =
      inMeasurement p L r k (q + 1) (p.tTick - 1) := by
  have hpoll := (lt_measPolls_iff hq.le).1 hq
  refine (if_neg (Nat.lt_irrefl 0)).trans ((if_pos hpoll).trans ?_)
  simp [highPoll, wait, inMeasurement, Nat.succ_mul]

theorem measureEdge_inMeasurement_end :
    measureEdge p (L (measStart p L k + measPolls p L k * p.tTick)) (inMeasurement p L r k (measPolls p L k) 0) =
      endBit p (inMeasurement p L r k (measPolls p L k) 0) :=
  (if_neg (Nat.lt_irrefl 0)).trans (if_neg (mt (lt_measPolls_iff le_rfl).2 (Nat.lt_irrefl _)))

/-- An edge of the measurements, with the level the line has there: still measuring, or answered at `measStart p L 8`. -/
theorem Measuring.next (ht : 1 ≤ p.tTick) (h : Measuring p L r c r') :
    Measuring p L r (c + 1) (measureEdge p (L c) (clearRsp r')) ∨
    (c + 1 = measStart p L 8 ∧ measureEdge p (L c) (clearRsp r') = answered p L r) := by
  obtain ⟨k, q, m, hk, hq, hc, rfl⟩ := h
  rw [clearRsp_inMeasurement]
  cases m with
  | succ m =>
    rw [measureEdge_inMeasurement_wait]
    exact .inl ⟨k, q, m, hk, hq, by omega, rfl⟩
  | zero =>
    obtain rfl : c = measStart p L k + q * p.tTick := hc
    obtain hmore | rfl := Nat.lt_or_eq_of_le hq
    · rw [measureEdge_inMeasurement_high hmore]
      exact .inl ⟨k, q + 1, p.tTick - 1, hk, hmore, by rw [Nat.succ_mul]; omega, rfl⟩
    · rw [measureEdge_inMeasurement_end, ← measStart_succ]
      obtain ⟨hk7, e⟩ | ⟨rfl, e⟩ := endBit_inMeasurement (p := p) (L := L) (r := r) (m := 0) hk <;> rw [e]
      · exact .inl ⟨k + 1, 0, 0, by omega, Nat.zero_le _, by omega, rfl⟩
      · exact .inr ⟨rfl, rfl⟩

/-- A run that begins a measurement at 0 and takes the edges of RECVBYTE on the line `L` measures until `measStart p L 8`,
and is then answered with the byte that `L` decodes to. -/
theorem run_measuring_then_answered (ht : 1 ≤ p.tTick) (run : Nat → Regs) (hstart : run 0 = inMeasurement p L r 0 0 0)
    (hrun : ∀ c, c < measStart p L 8 → (run c).ph = .meas → run (c + 1) = measureEdge p (L c) (clearRsp (run c))) :
    (∀ c, c < measStart p L 8 → Measuring p L r c (run c)) ∧ run (measStart p L 8) = answered p L r := by
  have hmeas : ∀ c, c < measStart p L 8 → Measuring p L r c (run c) := by
    intro c hc
    induction c with
    | zero => exact hstart ▸ measuring_start
    | succ c ih =>
      have h := ih (by omega)
      rw [hrun c (by omega) h.ph]
      exact (h.next ht).resolve_right fun hend => by omega
  refine ⟨hmeas, ?_⟩
  obtain ⟨c, hc⟩ : ∃ c, measStart p L 8 = c + 1 := ⟨_, measStart_succ p L 7⟩
  have h := hmeas c (by omega)
  rw [hc, hrun c (by omega) h.ph]
  obtain hmore | ⟨-, e⟩ := h.next ht
  · have hlt := hmore.lt_measStart
    omega
  · exact e

end Measuring

/-! ### The settle delay (R121, R122) -/

/-- The registers `n` edges after the one that released the wire. -/
def inSettle (p : Params) (r : Regs) (n : Nat) : Regs :=
  { clearRsp r with ph := .settle, bi := 0, si := 0, pinOe := false, pinO := LOW, tmr := p.tSettle - 1 - n }

/-- Edges of RECVBYTE from IDLE or SEND: the wire is released and the settle delay runs for `T_SETTLE` edges. -/
theorem iterate_recvByteEdge_settle (p : Params) (pin : Level) {r : Regs} (h : r.ph = .idle ∨ r.ph = .send) {n : Nat}
    (hn : n < p.tSettle) : (fun r => recvByteEdge p pin (clearRsp r))^[1 + n] r = inSettle p r n := by
  rw [Nat.add_comm]
  induction n with
  | zero => exact recvByteEdge_start p pin (clearRsp r) h
  | succ n ih =>
    rw [Function.iterate_succ_apply', ih (by omega)]
    refine (recvByteEdge_settle p pin (inSettle p r n) rfl).trans (settleEdge_of_waiting _ ?_)
    show 0 < p.tSettle - 1 - n
    omega

/-- The edge after the settle delay: the first measurement begins, with every measurement register 0. -/
theorem settleEdge_inSettle_last (p : Params) (L : Nat → Level) (r : Regs) :
    settleEdge (inSettle p r (p.tSettle - 1)) = inMeasurement p L (inSettle p r 0) 0 0 0 := by
  rw [settleEdge, if_neg (by simp [inSettle])]
  simp [inMeasurement, inSettle, bitsBefore, byteOfBits, clearRsp]

theorem iterate_recvByteEdge_meas (p : Params) (hs : 1 ≤ p.tSettle) (pin : Level) (L : Nat → Level) {r : Regs}
    (h : r.ph = .idle ∨ r.ph = .send) :
    (fun r => recvByteEdge p pin (clearRsp r))^[1 + p.tSettle] r = inMeasurement p L (inSettle p r 0) 0 0 0 := by
  rw [show 1 + p.tSettle = 1 + (p.tSettle - 1) + 1 by omega, Function.iterate_succ_apply',
    iterate_recvByteEdge_settle p pin h (by omega)]
  exact (recvByteEdge_settle p pin _ rfl).trans (settleEdge_inSettle_last p L r)

/-- A whole RECVBYTE from IDLE or SEND on a line that stays at `pin` (R120). -/
theorem iterate_recvByteEdge_answered (p : Params) (hs : 1 ≤ p.tSettle) (ht : 1 ≤ p.tTick) (pin : Level) {r : Regs}
    (h : r.ph = .idle ∨ r.ph = .send) :
    (fun r => recvByteEdge p pin (clearRsp r))^[1 + p.tSettle + measStart p (fun _ => pin) 8] r =
      answered p (fun _ => pin) (inSettle p r 0) := by
  refine (run_measuring_then_answered ht
    (fun c => (fun r => recvByteEdge p pin (clearRsp r))^[1 + p.tSettle + c] r) ?_ fun c _ hph => ?_).2
  · exact iterate_recvByteEdge_meas p hs pin _ h
  · exact (Function.iterate_succ_apply' _ _ _).trans (recvByteEdge_meas p pin _ hph)

/-- Edges of RECVBYTE by itself: the environment stands still, so `pin_i` is the same at each. -/
theorem execTimes_recvByte (s : State) (n : Nat) :
    execTimes .recvByte s n =
      .next (s.onRegs (fun r => recvByteEdge params (inputNow s).pinI (clearRsp r))^[n]) := by
  induction n with
  | zero => rfl
  | succ n ih =>
    rw [execTimes, ih, Function.iterate_succ']
    rfl

/-! ### The obligations of 41_frame_codec_receive.md -/

/-- Settles O40: `n * ACC_STEP` exceeds `THRESH` exactly when `n` is above the quotient. -/
theorem leastPollsThatDecodeAsOne : Obligations.LeastPollsThatDecodeAsOne := by
  refine fun p => ⟨decodeBit_iff p.thresh, fun hstep n => decodeBit_polls_iff hstep, fun h L k => ?_⟩
  obtain hzero | hpos := Nat.eq_zero_or_pos p.accStep
  · rw [measBit_eq_decodeBit, hzero, Nat.mul_zero]
    rfl
  · have hfew : p.nTicks < leastPolls p := h.resolve_left hpos.ne'
    rw [← Bool.not_eq_true, measBit_iff hpos]
    exact (measPolls_le.trans_lt hfew).not_ge

/-- Settles O41: `K1` HIGH polls are needed, and the measurement makes them exactly when its first `K1` polls are HIGH. -/
theorem bitIsOneIffFirstPollsHigh : Obligations.BitIsOneIffFirstPollsHigh := by
  intro p L k hstep hfit
  rw [measBit_iff hstep, le_measPolls_iff]
  exact and_iff_right hfit

/-- Settles O42: each bit by O41, or by the LOW first poll. -/
theorem pulseCodedReplyDecodes : Obligations.PulseCodedReplyDecodes := by
  intro p L x hstep hfit hpulse
  refine responseByte_eq_iff.2 fun k hk => ?_
  have hshown := hpulse k hk
  cases hx : x.getLsbD k with
  | true => exact (bitIsOneIffFirstPollsHigh p L k hstep hfit).2 (by simpa [hx] using hshown)
  | false => exact measBit_of_low (by simpa [hx] using hshown)

/-- Settles O39: no measurement makes a HIGH poll, or each makes `N_TICKS`. -/
theorem constantLineDecodes : Obligations.ConstantLineDecodes := by
  refine fun p L => ⟨fun hlow => ⟨?_, ?_⟩, fun hhigh hone => ⟨?_, ?_⟩⟩
  · exact responseByte_eq_iff.2 fun k hk => (measBit_of_low (hlow k hk)).trans (by simp)
  · rw [measStart_of_measPolls_eq fun k hk => measPolls_of_low (hlow k hk), Nat.zero_mul]
  · have hbits : ∀ k, k < 8 → (0xFF : Byte).getLsbD k = true := by decide
    refine responseByte_eq_iff.2 fun k hk => ?_
    rw [hbits k hk, measBit_eq_decodeBit, measPolls_of_high (hhigh k hk)]
    exact (decodeBit_iff _ _).2 hone
  · exact measStart_of_measPolls_eq fun k hk => measPolls_of_high (hhigh k hk)

/-- Settles O16: the registers during the settle delay, and those of the first measurement. -/
theorem recvByteReleasesAndSettles : Obligations.RecvByteReleasesAndSettles := by
  intro s hph
  refine ⟨fun n hn => ⟨_, execTimes_recvByte s _, ?_⟩, _, execTimes_recvByte s _, ?_⟩
  · simp [iterate_recvByteEdge_settle params _ hph hn, inSettle]
  · simp [iterate_recvByteEdge_meas params (by decide) _ (fun _ => LOW) hph, inMeasurement, inSettle, bitsBefore,
      byteOfBits]

/-- Settles O18: the whole RECVBYTE ends with the byte the constant line decodes to, and O39 says which and when. -/
theorem recvByteOfConstantLine : Obligations.RecvByteOfConstantLine := by
  intro s hph
  have hend := iterate_recvByteEdge_answered params (by decide) (by decide) (inputNow s).pinI hph
  obtain ⟨hlow, hhigh⟩ := constantLineDecodes params fun _ => (inputNow s).pinI
  refine ⟨fun hpin => ⟨_, execTimes_recvByte s _, ?_⟩, fun hpin hone => ⟨_, execTimes_recvByte s _, ?_⟩⟩
  · obtain ⟨hbyte, hlen⟩ := hlow fun _ _ => hpin
    rw [hlen] at hend
    rw [onRegs_toRegs, hend]
    exact ⟨rfl, rfl, rfl, hbyte⟩
  · obtain ⟨hbyte, hlen⟩ := hhigh (fun _ _ _ _ => hpin) hone
    rw [hlen] at hend
    rw [onRegs_toRegs, hend]
    exact ⟨rfl, rfl, rfl, hbyte⟩

end Sys2Proof.Safety

/-! PROOFS. The checksum byte in closed form: the accumulator before the mask of R140, at each legal width, and the two
nibbles of the byte. -/

namespace Sys2Proof.Machine

/-- The sum of the four data bytes, before any reduction (R140). -/
abbrev dataSum (d0 d1 d2 d3 : Byte) : Nat := d0.toNat + d1.toNat + d2.toNat + d3.toNat

/-- The accumulator of `checksum` before the mask, `c3` of R140, for data that sum to `S`. -/
def foldedSum (W S : Nat) : Nat :=
  let c1 := S % 2 ^ W
  let c2 := (c1 + (c1 >>> 8)) % 2 ^ W
  (c2 + (c2 <<< 4)) % 2 ^ W

/-- The checksum byte is the accumulator's bits 7:4 above the index; `checksum_eq_append` with its high nibble named. -/
theorem checksum_eq_foldedSum_append (W : Nat) (d0 d1 d2 d3 : Byte) (m : ModIndex) :
    checksum W d0 d1 d2 d3 m =
      (BitVec.ofNat 8 (foldedSum W (dataSum d0 d1 d2 d3))).extractLsb' 4 4 ++ m.setWidth 4 :=
  ofNat_mask_or_index _ m

theorem checksum_lowNibble (W : Nat) (d0 d1 d2 d3 : Byte) (m : ModIndex) :
    (checksum W d0 d1 d2 d3 m).extractLsb' 0 4 = m.setWidth 4 := by
  rw [checksum_eq_foldedSum_append, BitVec.extractLsb'_append_eq_right]

theorem checksum_highNibble_toNat (W : Nat) (d0 d1 d2 d3 : Byte) (m : ModIndex) :
    ((checksum W d0 d1 d2 d3 m).extractLsb' 4 4).toNat = foldedSum W (dataSum d0 d1 d2 d3) / 16 % 16 := by
  rw [checksum_eq_foldedSum_append, BitVec.extractLsb'_append_eq_left, BitVec.extractLsb'_toNat, BitVec.toNat_ofNat,
    Nat.shiftRight_eq_div_pow]
  omega

/-- A byte as a number is its high nibble times 16 and its low nibble. -/
theorem toNat_eq_nibbles (b : Byte) : b.toNat = (b.extractLsb' 4 4).toNat * 16 + (b.extractLsb' 0 4).toNat := by
  rw [BitVec.extractLsb'_toNat, BitVec.extractLsb'_toNat, Nat.shiftRight_eq_div_pow, Nat.shiftRight_zero]
  have := b.isLt
  omega

/-- R142: at `W = 8` the fold by `>> 8` does nothing, and `<< 4` makes the accumulator 17 times the sum. -/
theorem foldedSum_eight (S : Nat) : foldedSum 8 S = 17 * (S % 256) % 256 := by
  have hcarry : S % 256 / 256 = 0 := Nat.div_eq_of_lt (Nat.mod_lt _ (by decide))
  simp only [foldedSum, Nat.shiftRight_eq_div_pow, Nat.shiftLeft_eq, Nat.reducePow, hcarry, Nat.add_zero, Nat.mod_mod]
  omega

/-- At `W = 16` nothing wraps (42_checksum_addressing.md section 2): the carry `S / 256` is folded back in. -/
theorem foldedSum_sixteen {S : Nat} (hS : S < 1024) : foldedSum 16 S = 17 * (S + S / 256) := by
  have hsum : S % 65536 = S := Nat.mod_eq_of_lt (by omega)
  have hfold : (S + S / 256) % 65536 = S + S / 256 := Nat.mod_eq_of_lt (by omega)
  simp only [foldedSum, Nat.shiftRight_eq_div_pow, Nat.shiftLeft_eq, Nat.reducePow, hsum, hfold]
  omega

/-- Bits 7:4 of 17 times a number are the sum of its two low nibbles modulo 16 (the proof of R142). -/
theorem highNibble_seventeen_mul (x : Nat) : 17 * x / 16 % 16 = (x / 16 + x % 16) % 16 := by
  have hdiv : 17 * x / 16 = x / 16 + x := by omega
  rw [hdiv, Nat.add_mod_mod]

/-- R142: at `W = 8` bits 7:4 of the accumulator are the sum of the two nibbles of `S` modulo 16. -/
theorem foldedSum_eight_highNibble (S : Nat) :
    foldedSum 8 S / 16 % 16 = (S % 256 / 16 + S % 256 % 16) % 16 := by
  rw [foldedSum_eight, Nat.mod_mul_right_div_self (n := 16) (k := 16), Nat.mod_mod, highNibble_seventeen_mul]

theorem dataSum_lt (d0 d1 d2 d3 : Byte) : dataSum d0 d1 d2 d3 < 1024 := by
  have := d0.isLt
  have := d1.isLt
  have := d2.isLt
  have := d3.isLt
  unfold dataSum
  omega

/-- The wide accumulator has the carry `k = S / 256`, at most 3, added to the sum before the last step: bits 7:4 move by
`k` or `k + 1` modulo 16, and so by nothing exactly when `k = 0`. -/
theorem foldedSum_highNibble_eq_iff {S : Nat} (hS : S < 1024) :
    foldedSum 8 S / 16 % 16 = foldedSum 16 S / 16 % 16 ↔ S < 256 := by
  rw [foldedSum_eight_highNibble, foldedSum_sixteen hS, highNibble_seventeen_mul]
  have hcarry : S / 256 < 4 := by omega
  interval_cases hk : S / 256 <;> omega

end Sys2Proof.Machine

namespace Sys2Proof.Safety

open Sys2Proof.Machine

/-! ### The obligations of 42_checksum_addressing.md -/

/-- Settles O35: the index is the low part of the byte, at any width. -/
theorem checksumLowNibbleIsModuleIndex : Obligations.ChecksumLowNibbleIsModuleIndex :=
  fun W d0 d1 d2 d3 m _ => checksum_lowNibble W d0 d1 d2 d3 m

/-- Settles O36: the byte is its two nibbles, and bits 7:4 of `17 * S` are the sum of the nibbles of `S` (R142). -/
theorem checksumClosedForm : Obligations.ChecksumClosedForm := by
  intro d0 d1 d2 d3 m
  have hlow : (m.setWidth 4).toNat = m.toNat := BitVec.toNat_setWidth_of_le (by decide)
  rw [toNat_eq_nibbles, checksum_highNibble_toNat, checksum_lowNibble, hlow, foldedSum_eight_highNibble]

/-- Settles O37: the high nibbles are bits 7:4 of the two accumulators. -/
theorem checksumWidthsDifferFrom256 : Obligations.ChecksumWidthsDifferFrom256 := by
  intro d0 d1 d2 d3 m
  rw [← BitVec.toNat_inj, checksum_highNibble_toNat, checksum_highNibble_toNat]
  exact foldedSum_highNibble_eq_iff (dataSum_lt d0 d1 d2 d3)

end Sys2Proof.Safety

/-! PROOFS. A command presented to a busy framer; what may write `data` and `mod`; what each host command answers in
IDLE. -/

namespace Sys2Proof.Machine

/-! ### A busy framer does not read the host (R153) -/

/-- Outside IDLE the spec's `Step` reads `rst` and `pin_i` alone. -/
theorem specStep_eq_of_busy (p : Params) {i i' : Input} {r : Regs} (hbusy : r.ph ≠ .idle) (hrst : i.rst = i'.rst)
    (hpin : i.pinI = i'.pinI) : specStep p i r = specStep p i' r := by
  cases hph : r.ph with
  | idle => exact absurd hph hbusy
  | send => simp only [specStep, hph, hrst]
  | settle => simp only [specStep, hph, hrst]
  | meas => rw [specStep_meas p i hph, specStep_meas p i' hph, hrst, hpin]

/-- A busy framer takes no held word off the port (R153). -/
theorem envAfter_host_of_busy {s : State} (hbusy : s.ph ≠ .idle) :
    (envAfter s).host = hostAfter false s.env.host := by
  rw [envAfter_host, (cmdReady_eq_false_iff s.toRegs).2 hbusy]

/-! ### What writes `data` and `mod` (R10, R11, R159) -/

/-- A command of opcode `op` with an index in 0..3 is accepted at this edge (R153, R67). -/
def AcceptsLegal (op : BitVec 4) (i : Input) (r : Regs) : Prop :=
  r.ph = .idle ∧ i.cmdValid = true ∧ cmdOp i.cmd = op ∧ (cmdIdx i.cmd).toNat ≤ 3

/-- In IDLE only a legal SETDATA writes `data`, and only a legal SETMOD writes `mod`. -/
theorem specIdle_writes (p : Params) (i : Input) {r : Regs} (hph : r.ph = .idle) :
    ((specIdle p i r).data = r.data ∨ AcceptsLegal 0x1 i r) ∧ ((specIdle p i r).mod = r.mod ∨ AcceptsLegal 0x2 i r) := by
  obtain ⟨-, e⟩ | ⟨hv, hop, e⟩ | ⟨hv, hop, e⟩ | ⟨-, -, e⟩ | ⟨-, -, -, -, e⟩ := specIdle_cases p i r <;> rw [e]
  · exact ⟨.inl rfl, .inl rfl⟩
  · by_cases hidx : (cmdIdx i.cmd).toNat ≤ 3
    · exact ⟨.inr ⟨hph, hv, hop, hidx⟩, .inl (by rw [writeData_legal _ _ r hidx]; rfl)⟩
    · rw [writeData_illegal _ _ r hidx]
      exact ⟨.inl rfl, .inl rfl⟩
  · by_cases hidx : (cmdIdx i.cmd).toNat ≤ 3
    · exact ⟨.inl (by rw [writeMod_legal _ r hidx]; rfl), .inr ⟨hph, hv, hop, hidx⟩⟩
    · rw [writeMod_illegal _ r hidx]
      exact ⟨.inl rfl, .inl rfl⟩
  · exact ⟨.inl rfl, .inl rfl⟩
  · exact ⟨.inl rfl, .inl rfl⟩

theorem specSend_data_mod (p : Params) (r : Regs) : (specSend p r).data = r.data ∧ (specSend p r).mod = r.mod := by
  obtain ⟨-, e⟩ | ⟨-, -, e⟩ | ⟨-, -, -, e⟩ | ⟨-, -, -, e⟩ := specSend_cases p r <;> rw [e] <;> exact ⟨rfl, rfl⟩

/-- With `rst = 0` only an accepted legal SETDATA writes `data`, and only an accepted legal SETMOD writes `mod`. -/
theorem specStep_writes (p : Params) {i : Input} (r : Regs) (hrst : i.rst = false) :
    ((specStep p i r).data = r.data ∨ AcceptsLegal 0x1 i r) ∧ ((specStep p i r).mod = r.mod ∨ AcceptsLegal 0x2 i r) := by
  obtain ⟨h, -⟩ | ⟨-, hph, e⟩ | ⟨-, -, e⟩ | ⟨-, hph, e⟩ | ⟨-, hph, e⟩ := specStep_cases p i r
  · simp [hrst] at h
  · rw [e]
    exact specIdle_writes p i (r := clearRsp r) hph
  · obtain ⟨hdata, hmod⟩ := specSend_data_mod p (clearRsp r)
    exact ⟨.inl (e ▸ hdata), .inl (e ▸ hmod)⟩
  · have hwire : LeavesWire (clearRsp r) (settleEdge (clearRsp r)) := leavesWire_settleEdge (by simp [hph])
    exact ⟨.inl (e ▸ hwire.data), .inl (e ▸ hwire.mod)⟩
  · have hwire : LeavesWire (clearRsp r) (measureEdge p i.pinI (clearRsp r)) :=
      leavesWire_measureEdge p i.pinI (by simp [hph])
    exact ⟨.inl (e ▸ hwire.data), .inl (e ▸ hwire.mod)⟩

/-- A command leaves `mod` if its effect does. -/
theorem accept_mod {f : Regs → Regs} {r : Regs} (h : (f (clearRsp r)).mod = r.mod) : (accept f r).mod = r.mod := by
  unfold accept
  split
  · exact h
  · rfl

/-- SETMOD alone writes `mod` (R151). -/
theorem effect_mod {i : Instr} (h : ∀ idx val, i ≠ .setMod idx val) (pin : Level) (r : Regs) :
    (effect i pin r).mod = r.mod := by
  cases i with
  | setData idx val =>
    obtain ⟨st, d, e, -⟩ := writeData_frame idx val (clearRsp r)
    exact accept_mod (by rw [e]; rfl)
  | setMod idx val => exact absurd rfl (h idx val)
  | comm => exact accept_mod rfl
  | reserved0 => exact accept_mod rfl
  | reserved47 => exact accept_mod rfl
  | reserved8F => exact accept_mod rfl
  | sendByte v =>
    obtain ⟨ph, si, oe, l, n, e⟩ := sendByteEdge_writes params v (clearRsp r)
    simp [effect, e]
  | sendFrame d0 d1 d2 d3 cs =>
    obtain ⟨ph, bi, si, oe, l, n, e⟩ := sendFrameEdge_writes params (requestByte d0 d1 d2 d3 cs) (clearRsp r)
    simp [effect, e]
  | recvByte =>
    obtain ⟨-, e⟩ | ⟨-, hwire⟩ := recvByteEdge_wire params pin (clearRsp r)
    · simp [effect, e, startReceive_eq]
    · exact hwire.mod

/-! ### The answers of the host commands in IDLE (R150, R151, R160) -/

/-- A command word put together by shifts is its three fields side by side (R65). -/
theorem or_shifted_fields_eq_append (op idx : BitVec 4) (val : Byte) :
    op.setWidth 16 <<< 12 ||| idx.setWidth 16 <<< 8 ||| val.setWidth 16 = op ++ idx ++ val := by
  refine BitVec.eq_of_getLsbD_eq fun i hi => ?_
  simp only [BitVec.getLsbD_append]
  interval_cases i <;> simp

theorem decodeCmd_setData_word (idx : BitVec 4) (val : Byte) : decodeCmd (0x1#4 ++ idx ++ val) = .setData idx val := by
  simpa using decodeCmd_of_setData (cmdOp_fields 0x1#4 idx val)

theorem decodeCmd_setMod_word (idx : BitVec 4) (val : Byte) : decodeCmd (0x2#4 ++ idx ++ val) = .setMod idx val := by
  simpa using decodeCmd_of_setMod (cmdOp_fields 0x2#4 idx val)

/-- In IDLE an instruction that a command word stands for answers its effect on the registers cleared by R181. -/
theorem exec_of_accept {i : Instr} {f : Regs → Regs} {s : State} (hph : s.ph = .idle)
    (h : ∀ pin r, effect i pin r = accept f r) : exec i s = .next { s with toRegs := f (clearRsp s.toRegs) } := by
  rw [exec_eq, h, accept_idle f s.toRegs hph]

/-- A legal index is its low two bits (R67). -/
theorem extractLsb'_toNat_of_legal {idx : BitVec 4} (h : idx.toNat ≤ 3) : (idx.extractLsb' 0 2).toNat = idx.toNat := by
  rw [BitVec.extractLsb'_toNat, Nat.shiftRight_zero]
  exact Nat.mod_eq_of_lt (by omega)

end Sys2Proof.Machine

namespace Sys2Proof.Safety

open Sys2Proof.Machine

/-! ### The obligations of 43_bus_session.md -/

/-- Settles O11: outside IDLE the effect of every row is the clearing of R181. -/
theorem commandWordHasNoEffectWhileBusy : Obligations.CommandWordHasNoEffectWhileBusy := by
  intro w s hbusy
  rw [exec_eq, effect_decodeCmd_busy w _ hbusy]
  rfl

/-- Settles O30: what the spec's `Step` may write with `rst = 0`. -/
theorem onlySetCommandsWriteDataAndMod : Obligations.OnlySetCommandsWriteDataAndMod := by
  intro s t hstep hrst
  obtain ⟨hdata, hmod⟩ := specStep_writes params s.toRegs hrst
  rw [← toRegs_of_step hstep] at hdata hmod
  exact ⟨hdata.resolve_left, hmod.resolve_left⟩

/-- Settles O33: the two hosts' inputs agree on `rst` and `pin_i`, and the busy framer takes no held word. -/
theorem wordPresentedWhileBusyIsNotRead : Obligations.WordPresentedWhileBusyIsNotRead := by
  intro s host' hbusy hrst
  refine ⟨_, _, step_eq_specStep s, step_eq_specStep _, specStep_eq_of_busy params hbusy hrst rfl, ?_, ?_⟩
  · intro w rest hhost
    exact (envAfter_host_of_busy hbusy).trans (congrArg (hostAfter false) hhost)
  · intro r v w rest hhost
    exact (envAfter_host_of_busy hbusy).trans (congrArg (hostAfter false) hhost)

/-- Settles O3: what `fetch` names in IDLE, with a word presented and without. -/
theorem stepRunsDecodedCommand : Obligations.StepRunsDecodedCommand := by
  intro s hrst hph
  constructor <;> intro hv
  · have hfetch : fetch s = some (decodeCmd (inputNow s).cmd) := by simp [fetch, hph, hv]
    exact step_of_fetch hrst hfetch
  · have hfetch : fetch s = none := by simp [fetch, hph, hv]
    simp only [step_eq, hrst, hfetch]
    rfl

/-- Settles O6: the word is the three fields side by side; the effect is `writeData`'s on the two sides of the index
check. -/
theorem setDataWritesOneChannelOrRefuses : Obligations.SetDataWritesOneChannelOrRefuses := by
  intro ch val s
  refine ⟨?_, fun hph hlegal => ?_, fun hph hillegal => ?_⟩
  · exact (congrArg decodeCmd (or_shifted_fields_eq_append 0x1#4 ch val)).trans (decodeCmd_setData_word ch val)
  · rw [exec_of_accept hph fun _ _ => rfl, writeData_legal ch val _ hlegal]
    rfl
  · rw [exec_of_accept hph fun _ _ => rfl, writeData_illegal ch val _ (by omega)]
    rfl

/-- Settles O7: as O6, with `writeMod`; no effect of another instruction writes `mod`. -/
theorem setModWritesIndexOrRefuses : Obligations.SetModWritesIndexOrRefuses := by
  intro idx val s
  refine ⟨?_, fun hph hlegal => ?_, fun hph hillegal => ?_, fun i t hne hexec => ?_⟩
  · exact (congrArg decodeCmd (or_shifted_fields_eq_append 0x2#4 idx val)).trans (decodeCmd_setMod_word idx val)
  · rw [exec_of_accept hph fun _ _ => rfl, writeMod_legal idx _ hlegal]
    exact ⟨_, rfl, extractLsb'_toNat_of_legal hlegal, rfl⟩
  · rw [exec_of_accept hph fun _ _ => rfl, writeMod_illegal idx _ (by omega)]
    rfl
  · rw [exec_eq] at hexec
    cases hexec
    exact effect_mod hne _ _

/-- Settles O10: the three constructors have one effect, `raise` of ERR_ILLEGAL. -/
theorem reservedConstructorsComplete : Obligations.ReservedConstructorsComplete := by
  rintro i s hph (⟨low, rfl⟩ | ⟨op, low, rfl⟩ | ⟨op, low, rfl⟩) <;>
    exact exec_of_accept (f := raise .errIllegal) hph fun _ _ => rfl

/-- Settles O9: a word with such an opcode decodes to one of the reserved constructors, and O10 says what those do. -/
theorem reservedWordsAnswerErrIllegal : Obligations.ReservedWordsAnswerErrIllegal := by
  intro w s hop hph
  refine reservedConstructorsComplete _ s hph ?_
  obtain h0 | h4 := hop
  · exact .inl ⟨_, decodeCmd_of_reserved0 h0⟩
  · obtain h8 | h8 := Nat.lt_or_ge (cmdOp w).toNat 8
    · exact .inr (.inl ⟨_, _, decodeCmd_of_reserved47 h4 h8⟩)
    · exact .inr (.inr ⟨_, _, decodeCmd_of_reserved8F h8⟩)

end Sys2Proof.Safety

/-! PROOFS. The spec's `Step` along a whole bus cycle: the 66 slots of the request, the settle delay, the measurements, the
response; the cycles a bus cycle has still to run; the phase graph; the run of a finite host program. -/

namespace Sys2Proof.Machine

/-! ### The spec's `Step` with `rst = 0`, phase by phase (R180) -/

theorem specStep_idle (p : Params) {i : Input} {r : Regs} (hrst : i.rst = false) (hph : r.ph = .idle) :
    specStep p i r = specIdle p i (clearRsp r) := by
  simp [specStep, hrst, hph, clearRsp]

theorem specStep_send (p : Params) {i : Input} {r : Regs} (hrst : i.rst = false) (hph : r.ph = .send) :
    specStep p i r = specSend p (clearRsp r) := by
  simp [specStep, hrst, hph, clearRsp]

theorem specStep_settle (p : Params) {i : Input} {r : Regs} (hrst : i.rst = false) (hph : r.ph = .settle) :
    specStep p i r = settleEdge (clearRsp r) := by
  simp [specStep, hrst, hph, clearRsp, specSettle_eq_settleEdge]

theorem specStep_measuring (p : Params) {i : Input} {r : Regs} (hrst : i.rst = false) (hph : r.ph = .meas) :
    specStep p i r = measureEdge p i.pinI (clearRsp r) := by
  simp [specStep_meas p i hph, hrst]

/-- A response shown before the edge makes no difference (R181). -/
theorem specStep_clearRsp (p : Params) (i : Input) (r : Regs) : specStep p i (clearRsp r) = specStep p i r := rfl

theorem specStep_rspValid_iff (p : Params) (i : Input) (r : Regs) :
    (specStep p i r).rspValid = true ↔ ResponseDue p i r := by
  obtain ⟨hdue, st, r', e⟩ | ⟨hdue, -, d, r', e⟩ | ⟨hdue, hv, -⟩ := specStep_response p i r
  · simp [e, hdue]
  · simp [e, hdue]
  · simp [hv, hdue]

/-! ### COMM in IDLE, and the end of its request (R182, R183) -/

theorem decodeCmd_comm_word (idx : BitVec 4) (val : Byte) : decodeCmd (0x3#4 ++ idx ++ val) = .comm idx val := by
  simpa using decodeCmd_of_comm (cmdOp_fields 0x3#4 idx val)

theorem specIdle_of_comm (p : Params) {i : Input} (hv : i.cmdValid = true) (hop : cmdOp i.cmd = 0x3#4) (r : Regs) :
    specIdle p i r = startFrame p r := by
  rw [specIdle, if_neg (by simp [hv]), if_neg (by simp [hop]), if_neg (by simp [hop]), if_pos hop]
  rfl

/-- Until the request is complete R183 is a cycle of SENDFRAME over the bytes of the registers. -/
theorem specSend_eq_sendFrameEdge {p : Params} {r : Regs} (hph : r.ph = .send)
    (h : byteInProgress r = true ∨ r.bi.toNat < 5) : specSend p r = sendFrameEdge p (txByte p r) r := by
  cases hin : byteInProgress r with
  | true => rw [← sendByteEdge_eq_specSend hin, sendByteEdge, sendFrameEdge, if_pos hin, if_pos hin]
  | false => exact (sendFrameEdge_eq_specSend hph hin (h.resolve_left (by simp [hin])) _).symm

section RequestSlot

variable {p : Params} {i : Input} {r : Regs} {j n : Nat}

/-- An edge of the request but the last: `data` and `mod` are those of the start, so the bytes are too. -/
theorem specStep_inRequestSlot (hrst : i.rst = false) (hj : j < 66) (h : n < p.tBit - 1 ∨ j + 1 < 66) :
    specStep p i (inRequestSlot p (txByte p r) r j n) =
      sendFrameEdge p (txByte p r) (inRequestSlot p (txByte p r) r j n) := by
  refine (specStep_send p hrst rfl).trans (specSend_eq_sendFrameEdge (r := inRequestSlot p (txByte p r) r j n) rfl ?_)
  by_cases hin : n < p.tBit - 1 ∨ j % 11 < 10
  · exact .inl ((byteInProgress_inSlot (by omega)).2 hin)
  · have hbyte : (BitVec.ofNat 3 (j / 11)).toNat < 5 := by rw [BitVec.toNat_ofNat]; omega
    exact .inr hbyte

/-- The last edge of the last stop slot: the wire is released. -/
theorem specStep_inRequestSlot_end (hrst : i.rst = false) :
    specStep p i (inRequestSlot p (txByte p r) r 65 (p.tBit - 1)) =
      startReceive p (inRequestSlot p (txByte p r) r 65 (p.tBit - 1)) := by
  have hend : byteInProgress (inRequestSlot p (txByte p r) r 65 (p.tBit - 1)) = false := by
    rw [← Bool.not_eq_true]
    exact mt (byteInProgress_inSlot (by decide)).1 (by omega)
  exact (specStep_send p hrst rfl).trans (startReceive_eq_specSend rfl hend (by decide : ¬ (5#3).toNat < 5)).symm

end RequestSlot

/-! ### The edges of a measurement (R185) -/

theorem measureEdge_of_high {p : Params} {r : Regs} (ht : r.tmr = 0) (hpcnt : r.pcnt < p.nTicks) :
    measureEdge p HIGH r = highPoll p r :=
  (if_neg (by omega)).trans (if_pos ⟨hpcnt, rfl⟩)

theorem measureEdge_of_end {p : Params} {pin : Level} {r : Regs} (ht : r.tmr = 0) (h : p.nTicks ≤ r.pcnt ∨ pin = LOW) :
    measureEdge p pin r = endBit p r := by
  have hnot : ¬ (r.pcnt < p.nTicks ∧ pin = HIGH) := fun ⟨hlt, hpin⟩ =>
    h.elim (Nat.not_le_of_lt hlt) (by simp [hpin])
  exact (if_neg (by omega)).trans (if_neg hnot)

theorem exec_recvByte_meas {s : State} (hph : s.ph = .meas) :
    exec .recvByte s = .next { s with toRegs := measureEdge params (inputNow s).pinI (clearRsp s.toRegs) } := by
  rw [exec_eq, effect, recvByteEdge_meas params _ (clearRsp s.toRegs) hph]

theorem withDecodedBit_getLsbD (p : Params) {r : Regs} (hsi : r.si.toNat < 8) (k : Nat) :
    (withDecodedBit p r).getLsbD k = if k = r.si.toNat then decide (r.acc > p.thresh) else r.rxsh.getLsbD k :=
  setBit_getLsbD r.rxsh r.si.toNat k _ hsi

/-! ### The phase graph (R192) -/

/-- IDLE is left exactly when a COMM is presented. -/
theorem specIdle_ph (p : Params) (i : Input) {r : Regs} (hph : r.ph = .idle) :
    ((i.cmdValid = true ∧ cmdOp i.cmd = 0x3#4) ∧ (specIdle p i r).ph = .send) ∨
    (¬ (i.cmdValid = true ∧ cmdOp i.cmd = 0x3#4) ∧ (specIdle p i r).ph = .idle) := by
  obtain ⟨hv, e⟩ | ⟨-, hop, e⟩ | ⟨-, hop, e⟩ | ⟨hv, hop, e⟩ | ⟨-, -, -, hop, e⟩ := specIdle_cases p i r <;> rw [e]
  · exact .inr ⟨by simp [hv], hph⟩
  · obtain ⟨st, d, ewrite, -⟩ := writeData_frame (cmdIdx i.cmd) (cmdVal i.cmd) r
    exact .inr ⟨by simp [hop], ewrite ▸ hph⟩
  · obtain ⟨st, m, ewrite⟩ := writeMod_frame (cmdIdx i.cmd) r
    exact .inr ⟨by simp [hop], ewrite ▸ hph⟩
  · exact .inl ⟨⟨hv, hop⟩, rfl⟩
  · exact .inr ⟨fun h => hop h.2, hph⟩

theorem specSend_ph (p : Params) {r : Regs} (hph : r.ph = .send) :
    (specSend p r).ph = .send ∨ (specSend p r).ph = .settle := by
  obtain ⟨-, e⟩ | ⟨-, -, e⟩ | ⟨-, -, -, e⟩ | ⟨-, -, -, e⟩ := specSend_cases p r <;> rw [e]
  · exact .inl hph
  · exact .inl hph
  · exact .inl hph
  · exact .inr rfl

theorem settleEdge_ph {r : Regs} (hph : r.ph = .settle) : (settleEdge r).ph = .settle ∨ (settleEdge r).ph = .meas := by
  obtain ⟨-, e⟩ | ⟨-, e⟩ := settleEdge_cases r <;> rw [e]
  · exact .inl hph
  · exact .inr rfl

theorem measureEdge_ph (p : Params) (pin : Level) {r : Regs} (hph : r.ph = .meas) :
    (measureEdge p pin r).ph = .meas ∨ (measureEdge p pin r).ph = .idle := by
  obtain ⟨-, e⟩ | ⟨-, -, -, e⟩ | ⟨-, -, e⟩ := measureEdge_cases p pin r <;> rw [e]
  · exact .inl hph
  · exact .inl hph
  · obtain ⟨-, e'⟩ | ⟨-, e'⟩ := endBit_cases p r <;> rw [e']
    · exact .inl hph
    · exact .inr rfl

end Sys2Proof.Machine

namespace Sys2Proof.Safety

open Sys2Proof.Machine

/-! ### A bus cycle from the acceptance of its COMM (R187) -/

/-- An idle framer with the registers `r` accepts a COMM at edge 0, and `rst = 0` at the first `N` edges. -/
structure BusCycle (p : Params) (I : Nat → Input) (r : Regs) (N : Nat) : Prop where
  legal : p.Legal
  idle : r.ph = .idle
  comm : PresentsComm (I 0)
  rst : ∀ n, n < N → (I n).rst = false

section BusCycle

variable {p : Params} {I : Nat → Input} {r : Regs} {N : Nat}

/-- States `1 + j * T_BIT` to `(j + 1) * T_BIT` are those of slot `j` of the request. -/
theorem BusCycle.specRun_request (h : BusCycle p I r N) (hN : 66 * p.tBit ≤ N) {j n : Nat} (hj : j < 66)
    (hn : n < p.tBit) : specRun p I r (1 + j * p.tBit + n) = inRequestSlot p (txByte p r) r j n := by
  refine run_eq_of_slots (N := 66) (specRun p I r) (inRequestSlot p (txByte p r) r) ?_ (fun j n hj hn ih => ?_)
    (fun j hj ih => ?_) j n hj hn
  · obtain ⟨hrst0, hv, hop⟩ := h.comm
    exact ((specStep_idle p hrst0 h.idle).trans (specIdle_of_comm p hv hop _)).trans (startFrame_eq_inSlot _)
  · have hle : (j + 1) * p.tBit ≤ 66 * p.tBit := Nat.mul_le_mul_right _ hj
    rw [Nat.succ_mul] at hle
    rw [specRun, ih, specStep_inRequestSlot (h.rst _ (by omega)) hj (.inl (by omega))]
    exact (sendFrameEdge_inSlot (by omega) (.inl (by omega))).trans (slotEdge_inSlot_wait hn)
  · have hle : (j + 1 + 1) * p.tBit ≤ 66 * p.tBit := Nat.mul_le_mul_right _ hj
    rw [Nat.succ_mul, Nat.succ_mul] at hle
    have htBit : 1 ≤ p.tBit := h.legal.1
    rw [specRun, ih, specStep_inRequestSlot (h.rst _ (by omega)) (by omega) (.inr hj)]
    exact sendFrameEdge_inRequestSlot_last hj

/-- The settle delay follows the last stop slot with no cycle between. -/
theorem BusCycle.specRun_settle (h : BusCycle p I r N) (hN : 66 * p.tBit + p.tSettle ≤ N) {n : Nat}
    (hn : n < p.tSettle) : specRun p I r (1 + 66 * p.tBit + n) = inSettle p r n := by
  obtain ⟨htBit, -⟩ := h.legal
  induction n with
  | zero =>
    have hlast := h.specRun_request (by omega) (j := 65) (n := p.tBit - 1) (by decide) (by omega)
    rw [show 1 + 66 * p.tBit + 0 = 1 + 65 * p.tBit + (p.tBit - 1) + 1 by omega, specRun, hlast,
      specStep_inRequestSlot_end (h.rst _ (by omega))]
    rfl
  | succ n ih =>
    rw [← Nat.add_assoc, specRun, ih (by omega), specStep_settle p (h.rst _ (by omega)) rfl]
    refine settleEdge_of_waiting (inSettle p r n) ?_
    show 0 < p.tSettle - 1 - n
    omega

/-- The first poll comes `T_SETTLE` cycles after the release, with every measurement register 0. -/
theorem BusCycle.specRun_firstPoll (h : BusCycle p I r N) (hN : firstPoll p ≤ N) (L : Nat → Level) :
    specRun p I r (firstPoll p) = inMeasurement p L (inSettle p r 0) 0 0 0 := by
  obtain ⟨-, htSettle, -⟩ := h.legal
  unfold firstPoll at hN ⊢
  rw [show 1 + 66 * p.tBit + p.tSettle = 1 + 66 * p.tBit + (p.tSettle - 1) + 1 by omega, specRun,
    h.specRun_settle (by omega) (by omega), specStep_settle p (h.rst _ (by omega)) rfl]
  exact settleEdge_inSettle_last p L r

/-- The measurements of the line `L`, and the response after them. -/
theorem BusCycle.specRun_measure {L : Nat → Level} (h : BusCycle p I r (firstPoll p + measStart p L 8))
    (hL : ∀ c, L c = (I (firstPoll p + c)).pinI) :
    (∀ c, c < measStart p L 8 → Measuring p L (inSettle p r 0) c (specRun p I r (firstPoll p + c))) ∧
      specRun p I r (firstPoll p + measStart p L 8) = answered p L (inSettle p r 0) := by
  obtain ⟨-, -, htTick, -⟩ := h.legal
  refine run_measuring_then_answered htTick (fun c => specRun p I r (firstPoll p + c))
    (h.specRun_firstPoll (Nat.le_add_right _ _) L) fun c hc hph => ?_
  rw [hL]
  exact specStep_measuring p (h.rst _ (Nat.add_lt_add_left hc _)) hph

/-- From the first start slot to the last measurement the framer is busy and shows no response (R152, R154). -/
theorem BusCycle.busy_and_silent {L : Nat → Level} (h : BusCycle p I r (firstPoll p + measStart p L 8))
    (hL : ∀ c, L c = (I (firstPoll p + c)).pinI) {n : Nat} (h1 : 1 ≤ n) (hn : n < firstPoll p + measStart p L 8) :
    busy (specRun p I r n) = true ∧ (specRun p I r n).rspValid = false := by
  obtain ⟨htBit, -⟩ := h.legal
  have hpoll : firstPoll p = 1 + 66 * p.tBit + p.tSettle := rfl
  obtain hsend | hafter := Nat.lt_or_ge (n - 1) (66 * p.tBit)
  · have hj : (n - 1) / p.tBit < 66 := (Nat.div_lt_iff_lt_mul (by omega)).2 hsend
    have hslot : n = 1 + (n - 1) / p.tBit * p.tBit + (n - 1) % p.tBit := by
      rw [Nat.add_assoc, Nat.div_add_mod']
      omega
    rw [hslot, h.specRun_request (by omega) hj (Nat.mod_lt _ (by omega))]
    exact ⟨rfl, rfl⟩
  · obtain hsettle | hmeas := Nat.lt_or_ge n (firstPoll p)
    · obtain ⟨m, rfl⟩ := Nat.exists_eq_add_of_le (show 1 + 66 * p.tBit ≤ n by omega)
      rw [h.specRun_settle (by omega) (by omega)]
      exact ⟨rfl, rfl⟩
    · obtain ⟨c, rfl⟩ := Nat.exists_eq_add_of_le hmeas
      obtain ⟨k, q, m, -, -, -, e⟩ := (h.specRun_measure hL).1 c (by omega)
      rw [e]
      exact ⟨rfl, rfl⟩

end BusCycle

/-! ### The length of the measurements (R189) -/

theorem measStart_eq_sum (p : Params) (L : Nat → Level) (n : Nat) :
    measStart p L n = n + p.tTick * ((List.range n).map (measPolls p L)).sum := by
  induction n with
  | zero => rfl
  | succ n ih =>
    rw [measStart_succ, ih, List.sum_range_succ, Nat.mul_add, Nat.mul_comm p.tTick (measPolls p L n)]
    omega

theorem measStart_le (p : Params) (L : Nat → Level) (n : Nat) : measStart p L n ≤ n * (p.nTicks * p.tTick + 1) := by
  induction n with
  | zero => exact Nat.zero_le _
  | succ n ih =>
    have hpolls : measPolls p L n * p.tTick ≤ p.nTicks * p.tTick := Nat.mul_le_mul_right _ measPolls_le
    rw [measStart_succ, Nat.succ_mul]
    omega

/-! ### The cycles a bus cycle has still to run (R190) -/

/-- The most cycles one measurement takes (R126). -/
def measCycles (p : Params) : Nat := p.nTicks * p.tTick + 1

/-- The most cycles until IDLE is reached: what is left of the phase at hand, and the longest that the later ones run. -/
def cyclesLeft (p : Params) (r : Regs) : Nat :=
  match r.ph with
  | .idle => 0
  | .send => r.tmr + 1 + (10 - r.si.toNat + 11 * (5 - r.bi.toNat)) * p.tBit + p.tSettle + 8 * measCycles p
  | .settle => r.tmr + 1 + 8 * measCycles p
  | .meas => r.tmr + 1 + (p.nTicks - r.pcnt) * p.tTick + (7 - r.si.toNat) * measCycles p

section CyclesLeft

variable {p : Params} {r : Regs}

theorem cyclesLeft_idle (hph : r.ph = .idle) : cyclesLeft p r = 0 := by
  simp only [cyclesLeft, hph]

theorem cyclesLeft_eq_zero_iff : cyclesLeft p r = 0 ↔ r.ph = .idle := by
  refine ⟨fun h => ?_, cyclesLeft_idle⟩
  cases hph : r.ph <;> simp [cyclesLeft, hph] at h ⊢

/-- The first state of a request has the most cycles to run. -/
theorem cyclesLeft_lt_commBound (hp : p.Legal) (h : SeqInRange p r) : cyclesLeft p r < commBound p := by
  obtain ⟨-, -, -, hnTicks, -⟩ := hp
  have hbound : commBound p = 1 + 66 * p.tBit + p.tSettle + 8 * measCycles p := rfl
  cases hph : r.ph with
  | idle =>
    rw [cyclesLeft_idle hph]
    omega
  | send =>
    obtain ⟨-, -, htmr, -⟩ := (seqInRange_send_iff hph).1 h
    have hslots : (10 - r.si.toNat + 11 * (5 - r.bi.toNat)) * p.tBit ≤ 65 * p.tBit :=
      Nat.mul_le_mul_right _ (by omega)
    simp only [cyclesLeft, hph]
    omega
  | settle =>
    obtain ⟨-, -, htmr, -⟩ := (seqInRange_settle_iff hph).1 h
    simp only [cyclesLeft, hph]
    omega
  | meas =>
    obtain ⟨-, -, htmr, -, hfirst, -⟩ := (seqInRange_meas_iff hph).1 h
    have hbits : (7 - r.si.toNat) * measCycles p ≤ 7 * measCycles p := Nat.mul_le_mul_right _ (by omega)
    have hpolls : r.tmr + (p.nTicks - r.pcnt) * p.tTick < measCycles p := by
      unfold measCycles
      obtain h0 | hpos := Nat.eq_zero_or_pos r.pcnt
      · rw [hfirst h0, h0, Nat.sub_zero]
        omega
      · have hless : (p.nTicks - r.pcnt + 1) * p.tTick ≤ p.nTicks * p.tTick := Nat.mul_le_mul_right _ (by omega)
        rw [Nat.succ_mul] at hless
        omega
    simp only [cyclesLeft, hph]
    omega

/-- A cycle of waiting is one of those left. -/
theorem cyclesLeft_countDown (hbusy : r.ph ≠ .idle) (ht : 0 < r.tmr) : cyclesLeft p (countDown r) < cyclesLeft p r := by
  cases hph : r.ph with
  | idle => exact absurd hph hbusy
  | send => simp only [cyclesLeft, countDown, hph]; omega
  | settle => simp only [cyclesLeft, countDown, hph]; omega
  | meas => simp only [cyclesLeft, countDown, hph]; omega

theorem cyclesLeft_specSend (hp : p.Legal) (hph : r.ph = .send) : cyclesLeft p (specSend p r) < cyclesLeft p r := by
  obtain ⟨htBit, htSettle, -⟩ := hp
  obtain ⟨ht, e⟩ | ⟨-, hs, e⟩ | ⟨-, hs, hb, e⟩ | ⟨-, -, -, e⟩ := specSend_cases p r <;> rw [e]
  · exact cyclesLeft_countDown (by simp [hph]) ht
  · have hsucc : (r.si + 1).toNat = r.si.toNat + 1 := by bv_omega
    have hslot : 10 - r.si.toNat + 11 * (5 - r.bi.toNat) = 10 - (r.si.toNat + 1) + 11 * (5 - r.bi.toNat) + 1 := by omega
    simp only [cyclesLeft, hph, hsucc]
    rw [hslot, Nat.succ_mul _ p.tBit]
    omega
  · have hsucc : (r.bi + 1).toNat = r.bi.toNat + 1 := by bv_omega
    have hzero : (0 : BitVec 4).toNat = 0 := rfl
    have hslots : (10 - 0 + 11 * (5 - (r.bi.toNat + 1)) + 1) * p.tBit ≤
        (10 - r.si.toNat + 11 * (5 - r.bi.toNat)) * p.tBit := Nat.mul_le_mul_right _ (by omega)
    rw [Nat.succ_mul _ p.tBit] at hslots
    simp only [cyclesLeft, nextByte, wait, hph, hsucc, hzero]
    omega
  · simp only [cyclesLeft, startReceive_eq, hph]
    omega

theorem cyclesLeft_settleEdge (hph : r.ph = .settle) : cyclesLeft p (settleEdge r) < cyclesLeft p r := by
  obtain ⟨ht, e⟩ | ⟨-, e⟩ := settleEdge_cases r <;> rw [e]
  · exact cyclesLeft_countDown (by simp [hph]) ht
  · have hzero : (0 : BitVec 4).toNat = 0 := rfl
    simp only [cyclesLeft, hph, hzero, measCycles, Nat.sub_zero]
    omega

theorem cyclesLeft_endBit (hph : r.ph = .meas) : cyclesLeft p (endBit p r) < cyclesLeft p r := by
  obtain ⟨hsi, e⟩ | ⟨-, e⟩ := endBit_cases p r <;> rw [e]
  · have hsucc : (r.si + 1).toNat = r.si.toNat + 1 := by bv_omega
    have hbit : 7 - r.si.toNat = 7 - (r.si.toNat + 1) + 1 := by omega
    have hpolls : measCycles p = (p.nTicks - 0) * p.tTick + 1 := rfl
    simp only [cyclesLeft, hph, hsucc]
    rw [hbit, Nat.succ_mul]
    omega
  · simp only [cyclesLeft, hph]
    omega

theorem cyclesLeft_measureEdge (hp : p.Legal) (pin : Level) (hph : r.ph = .meas) :
    cyclesLeft p (measureEdge p pin r) < cyclesLeft p r := by
  obtain ⟨-, -, htTick, -⟩ := hp
  obtain ⟨ht, e⟩ | ⟨-, hpcnt, -, e⟩ | ⟨-, -, e⟩ := measureEdge_cases p pin r <;> rw [e]
  · exact cyclesLeft_countDown (by simp [hph]) ht
  · have hpoll : p.nTicks - r.pcnt = p.nTicks - (r.pcnt + 1) + 1 := by omega
    simp only [cyclesLeft, hph]
    rw [hpoll, Nat.succ_mul]
    omega
  · exact cyclesLeft_endBit hph

/-- Every edge of a busy framer brings IDLE nearer, whatever the line and the host do. -/
theorem cyclesLeft_specStep (hp : p.Legal) {i : Input} (hrst : i.rst = false) (hbusy : r.ph ≠ .idle) :
    cyclesLeft p (specStep p i r) < cyclesLeft p r := by
  cases hph : r.ph with
  | idle => exact absurd hph hbusy
  | send => rw [specStep_send p hrst hph]; exact cyclesLeft_specSend (r := clearRsp r) hp hph
  | settle => rw [specStep_settle p hrst hph]; exact cyclesLeft_settleEdge (r := clearRsp r) hph
  | meas => rw [specStep_measuring p hrst hph]; exact cyclesLeft_measureEdge (r := clearRsp r) hp _ hph

/-- Until IDLE is reached each edge takes one of the cycles left at the start. -/
theorem idle_reached_or_cyclesLeft (hp : p.Legal) {I : Nat → Input} (hrst : ∀ n, (I n).rst = false) (n : Nat) :
    (∃ m ≤ n, (specRun p I r m).ph = .idle) ∨ cyclesLeft p (specRun p I r n) + n ≤ cyclesLeft p r := by
  induction n with
  | zero => exact .inr le_rfl
  | succ n ih =>
    obtain ⟨m, hm, hidle⟩ | hleft := ih
    · exact .inl ⟨m, by omega, hidle⟩
    · by_cases hidle : (specRun p I r n).ph = .idle
      · exact .inl ⟨n, by omega, hidle⟩
      · have hless := cyclesLeft_specStep hp (hrst n) hidle
        exact .inr (by rw [specRun]; omega)

end CyclesLeft

/-! ### The run of a host program (R191) -/

theorem dataAfter_cons (d : Vector Byte 4) (w : Word) (ws : List Word) :
    dataAfter d (w :: ws) = dataAfter (dataAfter d [w]) ws := by
  simp only [dataAfter]
  split <;> rfl

theorem modAfter_cons (m : ModIndex) (w : Word) (ws : List Word) :
    modAfter m (w :: ws) = modAfter (modAfter m [w]) ws := rfl

theorem dataAfter_of_not_setData (d : Vector Byte 4) {w : Word} (h : cmdOp w ≠ 0x1#4) : dataAfter d [w] = d := by
  simp [dataAfter, h]

theorem modAfter_of_not_setMod (m : ModIndex) {w : Word} (h : cmdOp w ≠ 0x2#4) : modAfter m [w] = m := by
  simp [modAfter, h]

theorem writeData_data (w : Word) (hop : cmdOp w = 0x1#4) (r : Regs) :
    (writeData (cmdIdx w) (cmdVal w) r).data = dataAfter r.data [w] := by
  by_cases hidx : (cmdIdx w).toNat ≤ 3
  · rw [writeData_legal _ _ r hidx]
    simp [dataAfter, hop, hidx]
  · rw [writeData_illegal _ _ r hidx]
    simp [dataAfter, hidx]

theorem writeMod_mod (w : Word) (hop : cmdOp w = 0x2#4) (r : Regs) :
    (writeMod (cmdIdx w) r).mod = modAfter r.mod [w] := by
  by_cases hidx : (cmdIdx w).toNat ≤ 3
  · rw [writeMod_legal _ r hidx]
    simp [modAfter, hop, hidx]
  · rw [writeMod_illegal _ r hidx]
    simp [modAfter, hidx]

/-- A command accepted in IDLE leaves in `data` and `mod` what it writes there (R48). -/
theorem specIdle_data_mod (p : Params) {i : Input} (hv : i.cmdValid = true) (r : Regs) :
    (specIdle p i r).data = dataAfter r.data [i.cmd] ∧ (specIdle p i r).mod = modAfter r.mod [i.cmd] := by
  obtain ⟨hq, -⟩ | ⟨-, hop, e⟩ | ⟨-, hop, e⟩ | ⟨-, hop, e⟩ | ⟨-, h1, h2, -, e⟩ := specIdle_cases p i r
  · simp [hv] at hq
  · obtain ⟨st, d, ewrite, -⟩ := writeData_frame (cmdIdx i.cmd) (cmdVal i.cmd) r
    rw [e, writeData_data _ hop, modAfter_of_not_setMod _ (by simp [hop]), ewrite]
    exact ⟨rfl, rfl⟩
  · obtain ⟨st, m, ewrite⟩ := writeMod_frame (cmdIdx i.cmd) r
    rw [e, writeMod_mod _ hop, dataAfter_of_not_setData _ (by simp [hop]), ewrite]
    exact ⟨rfl, rfl⟩
  · rw [e, dataAfter_of_not_setData _ (by simp [hop]), modAfter_of_not_setMod _ (by simp [hop])]
    exact ⟨rfl, rfl⟩
  · rw [e, dataAfter_of_not_setData _ h1, modAfter_of_not_setMod _ h2]
    exact ⟨rfl, rfl⟩

theorem run_succ_of_step {M : Host.Core} {s t : M.State} (h : M.step s = .next t) (n : Nat) :
    M.run (n + 1) s = M.run n t := by
  rw [Host.Core.run, h]

section Program

variable {s t : State} {ws : List Word} {w : Word} {d : Vector Byte 4} {m : ModIndex}

theorem inputNow_of_nil (h : s.env.host = program []) : (inputNow s).rst = false ∧ (inputNow s).cmdValid = false := by
  simp [inputNow, h, program, hostNow]

theorem inputNow_of_cons (h : s.env.host = program (w :: ws)) :
    (inputNow s).rst = false ∧ (inputNow s).cmdValid = true ∧ (inputNow s).cmd = w := by
  simp [inputNow, h, program, hostNow]

theorem inputNow_rst_of_program (h : s.env.host = program ws) : (inputNow s).rst = false := by
  cases ws with
  | nil => exact (inputNow_of_nil h).1
  | cons w ws => exact (inputNow_of_cons h).1

/-- A busy framer leaves the words held (R153). -/
theorem hostAfter_false_program (ws : List Word) : hostAfter false (program ws) = program ws := by
  cases ws <;> rfl

/-- The words `ws` are still to be accepted, and leave `d` and `m` in `data` and `mod`; the invariant holds but for a
response shown. -/
structure Presents (d : Vector Byte 4) (m : ModIndex) (ws : List Word) (s : State) : Prop where
  host : s.env.host = program ws
  inv : Inv params (clearRsp s.toRegs)
  data : dataAfter s.data ws = d
  mod : modAfter s.mod ws = m

/-- The most cycles the run has left: those of the bus cycle at hand, and a COMM for every word to come. -/
def programCycles (ws : List Word) (s : State) : Nat := ws.length * commBound params + cyclesLeft params s.toRegs

/-- What response was shown before the edge makes no difference to the invariant after it. -/
theorem inv_specStep_of_clearRsp (i : Input) {r : Regs} (h : Inv params (clearRsp r)) : Inv params (specStep params i r) :=
  specStep_clearRsp params i r ▸ specStepKeepsInvariant params i (clearRsp r) (by decide) h

/-- An idle edge accepts the next word. -/
theorem Presents.accept (h : Presents d m (w :: ws) s) (hph : s.ph = .idle) :
    ∃ t, step s = .next t ∧ Presents d m ws t ∧ programCycles ws t < programCycles (w :: ws) s := by
  obtain ⟨hrst, hv, hw⟩ := inputNow_of_cons h.host
  obtain ⟨hdata, hmod⟩ := specIdle_data_mod params hv (clearRsp s.toRegs)
  rw [← specStep_idle params hrst hph, hw] at hdata hmod
  refine ⟨_, step_eq_specStep s, ⟨?_, inv_clearRsp (inv_specStep_of_clearRsp _ h.inv), ?_, ?_⟩, ?_⟩
  · rw [envAfter_host, (cmdReady_iff s.toRegs).2 hph, h.host]
    rfl
  · rw [← h.data, dataAfter_cons]
    exact congrArg (dataAfter · ws) hdata
  · rw [← h.mod, modAfter_cons]
    exact congrArg (modAfter · ws) hmod
  · have hless : cyclesLeft params (specStep params (inputNow s) s.toRegs) < commBound params :=
      cyclesLeft_lt_commBound (by decide) (inv_specStep_of_clearRsp (inputNow s) h.inv).seq
    simp only [programCycles, List.length_cons, Nat.succ_mul]
    omega

/-- An edge of a bus cycle takes one of its cycles, and nothing else of the run. -/
theorem Presents.busyEdge (h : Presents d m ws s) (hbusy : s.ph ≠ .idle) :
    ∃ t, step s = .next t ∧ Presents d m ws t ∧ programCycles ws t < programCycles ws s := by
  have hrst := inputNow_rst_of_program h.host
  obtain ⟨hdata, hmod⟩ := specStep_writes params s.toRegs hrst
  replace hdata := hdata.resolve_right fun ⟨hidle, _⟩ => hbusy hidle
  replace hmod := hmod.resolve_right fun ⟨hidle, _⟩ => hbusy hidle
  refine ⟨_, step_eq_specStep s, ⟨?_, inv_clearRsp (inv_specStep_of_clearRsp _ h.inv), ?_, ?_⟩, ?_⟩
  · rw [envAfter_host_of_busy hbusy, h.host, hostAfter_false_program]
  · exact (congrArg (dataAfter · ws) hdata).trans h.data
  · exact (congrArg (modAfter · ws) hmod).trans h.mod
  · exact Nat.add_lt_add_left (cyclesLeft_specStep (by decide) hrst hbusy) _

/-- With every word accepted an idle edge ends the run: a response shown goes (R181). -/
theorem Presents.quietEdge (h : Presents d m [] s) (hph : s.ph = .idle) :
    ∃ t, step s = .next t ∧ Ended t ∧ t.data = d ∧ t.mod = m ∧ CanonicalIdle t.toRegs := by
  obtain ⟨hrst, hv⟩ := inputNow_of_nil h.host
  refine ⟨_, step_eq_specStep s, ?_⟩
  rw [specStep_idle params hrst hph, specIdle, if_pos hv]
  refine ⟨⟨?_, hph, rfl⟩, h.data, h.mod, ((inv_idle_iff (r := clearRsp s.toRegs) hph).1 h.inv).1⟩
  rw [envAfter_host, h.host]
  rfl

/-- Until the run is over an edge brings its end nearer. -/
theorem Presents.next (h : Presents d m ws s) :
    (ws = [] ∧ s.ph = .idle) ∨
      ∃ ws' t, step s = .next t ∧ Presents d m ws' t ∧ programCycles ws' t < programCycles ws s := by
  by_cases hph : s.ph = .idle
  · cases ws with
    | nil => exact .inl ⟨rfl, hph⟩
    | cons w ws => exact .inr ⟨ws, h.accept hph⟩
  · exact .inr ⟨ws, h.busyEdge hph⟩

/-- The run ends at the latest one edge after the cycles it has left. -/
theorem Presents.run_ends (h : Presents d m ws s) :
    ∃ n t, n ≤ programCycles ws s + 1 ∧ Host.Core.run core n s = .next t ∧ Ended t ∧ t.data = d ∧ t.mod = m ∧
      CanonicalIdle t.toRegs := by
  induction hk : programCycles ws s using Nat.strong_induction_on generalizing ws s with
  | _ k ih =>
    obtain ⟨rfl, hph⟩ | ⟨ws', t, hstep, hnext, hless⟩ := h.next
    · obtain ⟨t, hstep, hend⟩ := h.quietEdge hph
      exact ⟨1, t, by omega, run_succ_of_step (M := core) hstep 0, hend⟩
    · obtain ⟨n, t', hn, hrun, hend⟩ := ih _ (hk ▸ hless) hnext rfl
      exact ⟨n + 1, t', by omega, (run_succ_of_step (M := core) hstep n).trans hrun, hend⟩

end Program

/-! ### The obligations of 44_sequencer_step.md -/

/-- Settles O5: `step_eq_specStep` says what the step answers. -/
theorem stepRefinesSpecStep : Obligations.StepRefinesSpecStep :=
  fun s => ⟨_, step_eq_specStep s, rfl, rfl⟩

/-- Settles O8: the word is the three fields side by side, and the effect is `startFrame`'s. -/
theorem commStartsTheRequest : Obligations.CommStartsTheRequest := by
  intro idx val s
  refine ⟨?_, fun hph => ⟨_, exec_of_accept (f := startFrame params) hph fun _ _ => rfl, rfl, rfl, rfl⟩⟩
  exact (congrArg decodeCmd (or_shifted_fields_eq_append 0x3#4 idx val)).trans (decodeCmd_comm_word idx val)

/-- Settles O17: the cases of `measureEdge`, and of `endBit` where a bit ends. -/
theorem recvByteMeasurementEdge : Obligations.RecvByteMeasurementEdge := by
  intro s hph
  rw [exec_recvByte_meas hph]
  refine ⟨fun ht => ?_, fun ht hpcnt hpin => ?_, fun ht hend => ?_⟩
  · rw [measureEdge_of_waiting _ _ _ (by simpa using ht)]
    rfl
  · rw [hpin, measureEdge_of_high (r := clearRsp s.toRegs) ht hpcnt]
    rfl
  · rw [measureEdge_of_end (r := clearRsp s.toRegs) ht hend]
    obtain ⟨hsi, e⟩ | ⟨hsi, e⟩ := endBit_cases params (clearRsp s.toRegs) <;> rw [e]
    · refine ⟨fun _ => ⟨_, rfl, withDecodedBit_getLsbD params (r := clearRsp s.toRegs) (by omega), ?_, rfl⟩,
        fun h7 => absurd h7 (Nat.ne_of_lt hsi)⟩
      show (s.si + 1).toNat = s.si.toNat + 1
      rw [clearRsp_si] at hsi
      bv_omega
    · refine ⟨fun hlt => absurd hlt (Nat.not_lt_of_le hsi), fun h7 => ⟨_, rfl, ?_, rfl⟩⟩
      rw [← h7]
      exact withDecodedBit_getLsbD params (r := clearRsp s.toRegs) (by simp [h7])

/-- Settles O20: the registers in edge `n` of slot `j` drive the level that O47 gives slot `j`. -/
theorem wireCarriesTheRequest : Obligations.WireCarriesTheRequest := by
  intro p I r hp hph hcomm hrst j n hj hn
  have hcycle : BusCycle p I r (66 * p.tBit) := ⟨hp, hph, hcomm, hrst⟩
  rw [hcycle.specRun_request le_rfl hj hn]
  refine ⟨rfl, rfl, ?_, rfl⟩
  rw [frameSlots, requestSlots_eq_flatMap, flatMap_byteSlots_getElem?, requestBytes_getElem? _ _ _ _ _ (by omega)]
  rfl

/-- Settles O21: the registers during the settle delay, and those at the first poll. -/
theorem wireReleasedThenSettles : Obligations.WireReleasedThenSettles := by
  intro p I r hp hph hcomm hrst
  have hcycle : BusCycle p I r (firstPoll p) := ⟨hp, hph, hcomm, hrst⟩
  refine ⟨fun n hn => ?_, ?_⟩
  · rw [hcycle.specRun_settle (by unfold firstPoll; omega) hn]
    exact ⟨rfl, rfl⟩
  · rw [hcycle.specRun_firstPoll le_rfl fun _ => LOW]
    exact ⟨rfl, rfl, rfl, rfl, rfl⟩

/-- Settles O22: the run of the measurements ends with `answered`; the edge after it is one of an idle framer. -/
theorem commAnswersTheDecodedByte : Obligations.CommAnswersTheDecodedByte := by
  intro p I r hp hph hcomm L hL hrst
  have hcycle : BusCycle p I r (firstPoll p + measStart p L 8) := ⟨hp, hph, hcomm, hrst⟩
  refine ⟨fun n h1 hn => hcycle.busy_and_silent hL h1 hn, ?_⟩
  rw [specRun, specStep_rspValid_iff, (hcycle.specRun_measure hL).2]
  refine ⟨rfl, rfl, rfl, ⟨rfl, rfl, rfl, rfl, rfl, rfl, rfl, rfl, rfl⟩, rfl, rfl, ?_⟩
  simp [ResponseDue, answered, AnswersCommand]

/-- Settles O23: the sum by induction over the measurements; each makes at most `N_TICKS` HIGH polls. -/
theorem measurementLength : Obligations.MeasurementLength := by
  intro p L
  have hsum := measStart_eq_sum p L 8
  exact ⟨fun _ => measPolls_le, hsum, by omega, measStart_le p L 8⟩

/-- Settles O24: the cycles left are fewer than the bound, and none is left only in IDLE. -/
theorem idleIsAlwaysReached : Obligations.IdleIsAlwaysReached := by
  intro p I r hp hinv hrst
  have hbound : cyclesLeft p r < commBound p := cyclesLeft_lt_commBound hp hinv.seq
  obtain ⟨n, hn, hidle⟩ | hleft := idle_reached_or_cyclesLeft (p := p) (r := r) hp hrst (cyclesLeft p r)
  · exact ⟨n, by omega, hidle⟩
  · exact ⟨_, hbound, (cyclesLeft_eq_zero_iff (p := p)).1 (by omega)⟩

/-- Settles O25: every edge brings the end of the run nearer, from `commBound` cycles a word at the start. -/
theorem programRunEnds : Obligations.ProgramRunEnds := by
  intro ws s hidle hhost
  have hinv : Inv params (clearRsp s.toRegs) :=
    (inv_idle_iff (r := clearRsp s.toRegs) hidle.ph).2
      ⟨hidle.with_hostRegs _ _ _ _ _, rspInRange_of_silent rfl rfl rfl⟩
  have hcycles : programCycles ws s = ws.length * commBound params := by
    rw [programCycles, cyclesLeft_idle hidle.ph, Nat.add_zero]
  exact hcycles ▸ (Presents.mk hhost hinv rfl rfl).run_ends

/-- Settles O29: where the spec's `Step` goes from each phase. -/
theorem phaseGraph : Obligations.PhaseGraph := by
  intro s t hstep
  rw [toRegs_of_step hstep]
  refine ⟨fun hrst => ?_, fun hrst => ⟨fun hph => ?_, fun hph => ?_, fun hph => ?_, fun hph => ?_⟩⟩
  · rw [specStep, if_pos hrst]
    rfl
  · rw [specStep_idle params hrst hph]
    obtain ⟨hcomm, e⟩ | ⟨hcomm, e⟩ := specIdle_ph params (inputNow s) (r := clearRsp s.toRegs) hph
    · exact ⟨iff_of_true e hcomm, .inr e⟩
    · exact ⟨iff_of_false (by simp [e]) hcomm, .inl e⟩
  · rw [specStep_send params hrst hph]
    exact specSend_ph params hph
  · rw [specStep_settle params hrst hph]
    exact settleEdge_ph hph
  · rw [specStep_measuring params hrst hph]
    exact measureEdge_ph params _ hph

end Sys2Proof.Safety

/-! PROOFS. What a refused command answers, and that a step which accepts one leaves nothing else behind. -/

namespace Sys2Proof.Safety

open Sys2Proof.Machine

/-! ### The refused commands (R211, R213) -/

/-- A SETDATA or SETMOD word with an index of 4..15 answers ERR_CONFIG with no other effect. -/
theorem exec_of_illegalIndex {w : Word} {s : State} (hph : s.ph = .idle) (hset : cmdOp w = 0x1#4 ∨ cmdOp w = 0x2#4)
    (hidx : 4 ≤ (cmdIdx w).toNat) :
    exec (decodeCmd w) s = .next { s with rspValid := true, rspStatus := 1, rspData := 0 } := by
  obtain hdata | hmod := hset
  · obtain ⟨-, -, hrefuses⟩ := setDataWritesOneChannelOrRefuses (cmdIdx w) (cmdVal w) s
    rw [decodeCmd_of_setData hdata, hrefuses hph hidx]
  · obtain ⟨-, -, hrefuses, -⟩ := setModWritesIndexOrRefuses (cmdIdx w) (cmdVal w) s
    rw [decodeCmd_of_setMod hmod, hrefuses hph hidx]

/-- A reserved opcode is neither SETDATA's nor SETMOD's (R66). -/
theorem not_setOpcode_of_reserved :
    ∀ op : BitVec 4, op = 0x0#4 ∨ 4 ≤ op.toNat → ¬ (op = 0x1#4 ∨ op = 0x2#4) := by decide

/-- A refused word answers the status of its opcode with no other effect. -/
theorem exec_of_refused {w : Word} {s : State} (hph : s.ph = .idle)
    (hrefused : ((cmdOp w = 0x1#4 ∨ cmdOp w = 0x2#4) ∧ 4 ≤ (cmdIdx w).toNat) ∨ cmdOp w = 0x0#4 ∨ 4 ≤ (cmdOp w).toNat) :
    exec (decodeCmd w) s = .next { s with
      rspValid := true, rspData := 0, rspStatus := if cmdOp w = 0x1#4 ∨ cmdOp w = 0x2#4 then 1 else 2 } := by
  obtain ⟨hset, hidx⟩ | hreserved := hrefused
  · rw [if_pos hset, exec_of_illegalIndex hph hset hidx]
  · rw [if_neg (not_setOpcode_of_reserved _ hreserved), reservedWordsAnswerErrIllegal w s hreserved hph]

/-! ### The obligation of 60_exceptions.md -/

/-- Settles O13: the step runs the refused word (O3), whose answer leaves the phase at IDLE. -/
theorem refusalLeavesNoTrace : Obligations.RefusalLeavesNoTrace := by
  intro s t hrst hph hvalid hrefused hstep
  obtain ⟨hpresented, -⟩ := stepRunsDecodedCommand s hrst hph
  obtain ⟨u, hexec, hnext⟩ := hpresented hvalid
  rw [exec_of_refused hph hrefused] at hexec
  cases hexec
  cases hnext.symm.trans hstep
  exact ⟨rfl, (cmdReady_iff _).2 hph⟩

end Sys2Proof.Safety

/-! PROOFS. An edge with `rst = 1`: what the step answers, and what is left of the host's acts. -/

namespace Sys2Proof.Safety

open Sys2Proof.Machine

/-! ### The reset edge (R240) -/

/-- `rst` is looked at before anything else (R215). -/
theorem step_of_rst {s : State} (hrst : (inputNow s).rst = true) : step s = .next (resetEdge s) :=
  if_pos hrst

/-- An edge the host drives is spent whatever the framer does at it; only a held word waits to be accepted. -/
theorem envAfter_host_of_drive {s : State} {rst v : Bool} {w : Word} {rest : List HostAct}
    (hhost : s.env.host = .drive rst v w :: rest) : (envAfter s).host = rest := by
  rw [envAfter_host, hhost, hostAfter]

/-! ### The obligation of 70_reset_and_hazards.md -/

/-- Settles O2: the reset edge has the registers of `State.reset`, and a host that asserts `rst` drives the edge. -/
theorem resetOverridesEverything : Obligations.ResetOverridesEverything :=
  fun _ hrst => ⟨step_of_rst hrst, fun _ _ _ hhost => envAfter_host_of_drive hhost⟩

end Sys2Proof.Safety
